-- ==== Sys2Proof/Word.lean ====
section
/-!
DEFINITION. The words of the HD44780 LCD nibble-mode FSM: the byte, the request word and the glyph operand.
-/

namespace Sys2Proof

/-- One byte: an operand, a command or data byte, or a transport payload (20_memory.md R55). -/
abbrev Byte := BitVec 8

/-- The request word `REQ_WORD[31:0]` (30_encoding.md R63). -/
abbrev Word := BitVec 32

/-- The operand `REQ_GLYPH[63:0]`, read only by CREATE (30_encoding.md R63, R67). -/
abbrev Glyph := BitVec 64

end Sys2Proof
end

