-- ==== Sys2Proof/Config.lean ====
section
/-!
DEFINITION. What an implementation fixes (the named parameters of 00_scope.md R9 to R11), what the environment
drives into one step (the input pins), and the free value of the model: the pins of a step that no script names.
-/

namespace Sys2Proof

/-- The implementation parameters of 00_scope.md R9 (minimum waits, in µs), R10 (bit positions of a payload) and
R11 (`CLS_HOME`). A payload position is a value in 0..3, hence `Fin 4`. `F_TICK` (R12) has no field: "The model
needs no timebase" (assumption log 5). -/
structure Params where
  tSetup     : Nat
  tPulse     : Nat
  tExec      : Nat
  tInit1     : Nat
  tInit2     : Nat
  tInit3     : Nat
  tLong      : Nat
  tPwrSettle : Nat
  bitRs      : Fin 4
  bitRw      : Fin 4
  bitEn      : Fin 4
  bitBl      : Fin 4
  clsHome    : Bool
  deriving DecidableEq, Repr

/-- The defaults of 00_scope.md R9, R10 and R11. -/
def Params.default : Params where
  tSetup := 1
  tPulse := 1
  tExec := 40
  tInit1 := 4500
  tInit2 := 4500
  tInit3 := 150
  tLong := 2000
  tPwrSettle := 0
  bitRs := 0
  bitRw := 1
  bitEn := 2
  bitBl := 3
  clsHome := true

/-- 00_scope.md R10: the four positions "must be distinct values in 0..3" (the bound is in the type). -/
abbrev Params.Distinct (p : Params) : Prop :=
  [p.bitRs, p.bitRw, p.bitEn, p.bitBl].Nodup

/-- The input pins as one step sees them: `RESET` and the straps (70_reset_and_hazards.md R168, 10_state.md R31), the
request port (10_state.md R21), the transport's answer (20_memory.md R50), and the time in µs that has passed since the
step before (40_nibble_framer.md R91; assumption log 4). -/
structure Pins where
  reset     : Bool
  geomIn    : BitVec 2
  addr7In   : BitVec 7
  reqValid  : Bool
  reqWord   : Word
  reqGlyph  : Glyph
  txDone    : Bool
  txOk      : Bool
  elapsedUs : Nat
  deriving DecidableEq, Repr, Inhabited

/-- Free value: the pins of step number `n` where the state's script names none. Which answer a transport write gets is
"an environment draw, under no law" (20_memory.md R50), and so is every other input: nothing constrains this constant
(assumption log 2). -/
opaque Config.freePins : Nat → Pins

end Sys2Proof
end

