-- ==== Sys2Proof/Syntax.lean ====
section
/-!
DEFINITION. The requests of the block: one constructor per row of opcode_table.json (30_encoding.md R65, R66, R81).
-/

namespace Sys2Proof

/-- One legal request. Every operand is the 8-bit unsigned field as it stands in the word (30_encoding.md R68); the
glyph is the whole of `REQ_GLYPH` (R67). A position or slot outside the panel is a legal operand (R76). -/
inductive Instr where
  | cls
  | home
  | locate (col row : Byte)
  | displayOn
  | displayOff
  | cursorOn
  | cursorOff
  | blinkOn
  | blinkOff
  | scrollLeft
  | scrollRight
  | leftToRight
  | rightToLeft
  | autoscrollOn
  | autoscrollOff
  | backlightOn
  | backlightOff
  | character (col row value : Byte)
  | create (slot : Byte) (glyph : Glyph)
  | putc (ch : Byte)
  deriving DecidableEq, Repr

end Sys2Proof
end

