-- ==== Sys2Proof/WellFormed.lean ====
section
/-!
DEFINITION. Well-formedness. A term of Instr carries its bounds in its types (every operand a byte, the glyph eight
bytes), so each one is well-formed as it stands. The unbounded syntax is the assembler's: a source line has numbers, and
"Every operand must be in 0..255, and the assembler refuses any other value" (30_encoding.md R79). Its checks are here.
-/

namespace Sys2Proof

/-- The mode names of 30_encoding.md R66, as `DISPLAY <mode-name>` spells them (R79). -/
inductive DisplayMode where
  | displayOn | displayOff | cursorOn | cursorOff | blinkOn | blinkOff | scrollLeft | scrollRight
  | leftToRight | rightToLeft | autoscrollOn | autoscrollOff | backlightOn | backlightOff
  deriving DecidableEq, Repr

/-- One line of assembly (30_encoding.md R79), and the pseudo-instruction `PUTS` (R80). A number or a character literal is
the number it stands for; the letters of the line are not modelled (assumption log 16). -/
inductive AsmLine where
  | cls
  | home
  | locate (col row : Nat)
  | display (mode : DisplayMode)
  | character (col row value : Nat)
  | create (slot : Nat) (bytes : List Nat)
  | putc (value : Nat)
  | puts (text : List Nat)
  deriving DecidableEq, Repr

/-- "Every operand must be in 0..255" (30_encoding.md R79). -/
def operandOk (n : Nat) : Bool := decide (n < 256)

/-- The assembler's check of one line: every operand in range, and CREATE with its eight bytes `b0..b7` (30_encoding.md
R79). -/
def AsmLine.wellFormed : AsmLine → Bool
  | .cls => true
  | .home => true
  | .locate c r => operandOk c && operandOk r
  | .display _ => true
  | .character c r v => operandOk c && operandOk r && operandOk v
  | .create s bs => operandOk s && bs.length == 8 && bs.all operandOk
  | .putc v => operandOk v
  | .puts text => text.all operandOk

end Sys2Proof
end

