-- ==== Sys2Proof/Decode.lean ====
section
/-!
DEFINITION. The decoder of the request word, total on every 32-bit word (30_encoding.md R69), the encoder written from the
same tables (R63 to R66), and the assembler (R79, R80).
-/

namespace Sys2Proof

/-- Field `OP`, bits 31:28 (30_encoding.md R63). -/
def opField (w : Word) : BitVec 4 := w.extractLsb' 28 4

/-- Field `RSV`, bits 27:24 (30_encoding.md R63). -/
def rsvField (w : Word) : BitVec 4 := w.extractLsb' 24 4

/-- Field `A`, bits 23:16 (30_encoding.md R63). -/
def aField (w : Word) : Byte := w.extractLsb' 16 8

/-- Field `B`, bits 15:8 (30_encoding.md R63). -/
def bField (w : Word) : Byte := w.extractLsb' 8 8

/-- Field `C`, bits 7:0 (30_encoding.md R63). -/
def cField (w : Word) : Byte := w.extractLsb' 0 8

/-- Why a word is illegal (30_encoding.md R69, R75). All of them complete with `ERR_ILLEGAL` (60_exceptions.md R151). -/
inductive Illegal where
  /-- `OP` is 0x0 or 0x8..0xF. -/
  | op
  /-- `RSV` is not 0. -/
  | rsv
  /-- A field that 30_encoding.md R65 marks 0 is not 0. -/
  | zeroField
  /-- DISPLAY with a mode in 0x0E..0xFF. -/
  | mode
  deriving DecidableEq, Repr

/-- The DISPLAY mode codes of 30_encoding.md R66; 0x0E..0xFF are illegal. -/
def decodeMode (c : Byte) : Except Illegal Instr :=
  match c.toNat with
  | 0x00 => .ok .displayOn
  | 0x01 => .ok .displayOff
  | 0x02 => .ok .cursorOn
  | 0x03 => .ok .cursorOff
  | 0x04 => .ok .blinkOn
  | 0x05 => .ok .blinkOff
  | 0x06 => .ok .scrollLeft
  | 0x07 => .ok .scrollRight
  | 0x08 => .ok .leftToRight
  | 0x09 => .ok .rightToLeft
  | 0x0A => .ok .autoscrollOn
  | 0x0B => .ok .autoscrollOff
  | 0x0C => .ok .backlightOn
  | 0x0D => .ok .backlightOff
  | _ => .error .mode

/-- `decode` of 30_encoding.md R69, with the glyph operand that comes beside the word (R63, R67). -/
def decode (w : Word) (g : Glyph) : Except Illegal Instr :=
  let (a, b, c) := (aField w, bField w, cField w)
  if ¬ (1 ≤ (opField w).toNat ∧ (opField w).toNat ≤ 7) then .error .op
  else if rsvField w ≠ 0 then .error .rsv
  else match (opField w).toNat with
    | 1 => if a = 0 ∧ b = 0 ∧ c = 0 then .ok .cls else .error .zeroField
    | 2 => if a = 0 ∧ b = 0 ∧ c = 0 then .ok .home else .error .zeroField
    | 3 => if c = 0 then .ok (.locate a b) else .error .zeroField
    | 4 => if a = 0 ∧ b = 0 then decodeMode c else .error .zeroField
    | 5 => .ok (.character a b c)
    | 6 => if b = 0 ∧ c = 0 then .ok (.create a g) else .error .zeroField
    | 7 => if a = 0 ∧ b = 0 then .ok (.putc c) else .error .zeroField
    | _ => .error .op

/-- A word from its fields, with `RSV = 0` (30_encoding.md R63, R65). -/
def packWord (op : BitVec 4) (a b c : Byte) : Word := op ++ 0#4 ++ a ++ b ++ c

/-- The request word of an instruction (30_encoding.md R64, R65, R66). -/
def encodeWord : Instr → Word
  | .cls => packWord 1 0 0 0
  | .home => packWord 2 0 0 0
  | .locate c r => packWord 3 c r 0
  | .displayOn => packWord 4 0 0 0x00
  | .displayOff => packWord 4 0 0 0x01
  | .cursorOn => packWord 4 0 0 0x02
  | .cursorOff => packWord 4 0 0 0x03
  | .blinkOn => packWord 4 0 0 0x04
  | .blinkOff => packWord 4 0 0 0x05
  | .scrollLeft => packWord 4 0 0 0x06
  | .scrollRight => packWord 4 0 0 0x07
  | .leftToRight => packWord 4 0 0 0x08
  | .rightToLeft => packWord 4 0 0 0x09
  | .autoscrollOn => packWord 4 0 0 0x0A
  | .autoscrollOff => packWord 4 0 0 0x0B
  | .backlightOn => packWord 4 0 0 0x0C
  | .backlightOff => packWord 4 0 0 0x0D
  | .character c r v => packWord 5 c r v
  | .create s _ => packWord 6 s 0 0
  | .putc ch => packWord 7 0 0 ch

/-- The glyph operand of an instruction: "Every other form leaves `REQ_GLYPH` as 0" (30_encoding.md R79). -/
def encodeGlyph : Instr → Glyph
  | .create _ g => g
  | _ => 0

/-- The word and the glyph operand of an instruction. -/
def encode (i : Instr) : Word × Glyph := (encodeWord i, encodeGlyph i)

/-- The rows of opcode_table.json as pairs of match and mask (30_encoding.md R65, R81). -/
def opcodeTable : List (Word × Word) :=
  [(0x10000000, 0xFFFFFFFF), (0x20000000, 0xFFFFFFFF), (0x30000000, 0xFF0000FF)]
  ++ (List.range 14).map (fun mode => (0x40000000 + BitVec.ofNat 32 mode, 0xFFFFFFFF))
  ++ [(0x50000000, 0xFF000000), (0x60000000, 0xFF00FFFF), (0x70000000, 0xFFFFFF00)]

/-- "A word matches a row when `(REQ_WORD & mask) = match`" (30_encoding.md R65). -/
abbrev MatchesRow (w : Word) (row : Word × Word) : Prop := w &&& row.2 = row.1

/-- The instruction the decoder reads from `nbits` bits of `w`: bits 31:0 are the request word, and the bits above them
(which no row of the table has, so they are 0 there) the glyph operand (30_encoding.md R78; assumption log 11). -/
def decodeTableWord (nbits w : Nat) : Option Instr :=
  let v := w % 2 ^ nbits
  match decode (BitVec.ofNat 32 v) (BitVec.ofNat 64 (v / 2 ^ 32)) with
  | .ok i => some i
  | .error _ => none

/-- `DISPLAY <mode-name>` (30_encoding.md R66, R79). -/
def DisplayMode.toInstr : DisplayMode → Instr
  | .displayOn => .displayOn
  | .displayOff => .displayOff
  | .cursorOn => .cursorOn
  | .cursorOff => .cursorOff
  | .blinkOn => .blinkOn
  | .blinkOff => .blinkOff
  | .scrollLeft => .scrollLeft
  | .scrollRight => .scrollRight
  | .leftToRight => .leftToRight
  | .rightToLeft => .rightToLeft
  | .autoscrollOn => .autoscrollOn
  | .autoscrollOff => .autoscrollOff
  | .backlightOn => .backlightOn
  | .backlightOff => .backlightOff

/-- `CREATE` "places `b0..b7` in `GLYPH[0..7]`" (30_encoding.md R79), where `GLYPH[i]` is bits 8i+7:8i (R67): the number
whose base-256 digits, least significant first, are the bytes. -/
def packGlyph (bytes : List Nat) : Glyph :=
  BitVec.ofNat 64 (bytes.foldr (fun b acc => b + 256 * acc) 0)

/-- The instructions a line stands for, or none where the assembler refuses the line (30_encoding.md R79, R80). -/
def assembleLine (l : AsmLine) : Option (List Instr) :=
  if l.wellFormed then
    some <| match l with
      | .cls => [.cls]
      | .home => [.home]
      | .locate c r => [.locate (BitVec.ofNat 8 c) (BitVec.ofNat 8 r)]
      | .display m => [m.toInstr]
      | .character c r v => [.character (BitVec.ofNat 8 c) (BitVec.ofNat 8 r) (BitVec.ofNat 8 v)]
      | .create s bs => [.create (BitVec.ofNat 8 s) (packGlyph bs)]
      | .putc v => [.putc (BitVec.ofNat 8 v)]
      | .puts text => text.map fun ch => .putc (BitVec.ofNat 8 ch)
  else none

/-- The requests a line is issued as, in order. -/
def assemble (l : AsmLine) : Option (List (Word × Glyph)) := (assembleLine l).map (List.map encode)

end Sys2Proof
end

