-- ==== Sys2Proof/Machine/State.lean ====
section
/-!
DEFINITION. The state of the block (10_state.md R20), its control alphabet (R33, R36, R37, 60_exceptions.md R150), the
reset state (10_state.md R42), and the reasons a step can stop.
-/

namespace Sys2Proof.Machine

/-- `STATE` (10_state.md R33), in the order of its codes 0 to 3. -/
inductive Fsm where
  | uninit
  | initializing
  | ready
  | failed
  deriving DecidableEq, Repr

/-- `RSP_CODE` (60_exceptions.md R150), in the order of its codes 0 to 3. -/
inductive Code where
  | ok
  | errIllegal
  | errAddr
  | errIo
  deriving DecidableEq, Repr

/-- The register select of a nibble: `CMD = 0`, `DATA = 1` (00_scope.md section 4, 20_memory.md R48). -/
inductive RegSel where
  | cmd
  | data
  deriving DecidableEq, Repr

/-- The panel geometries, in the order of their strap codes 0 to 3 (10_state.md R31). -/
inductive Geometry where
  | g16x2
  | g20x2
  | g20x4
  | g40x2
  deriving DecidableEq, Repr

/-- The named state updates of a `SET` (10_state.md R36). -/
inductive Update where
  | dcOr (m : Byte)
  | dcClr (m : Byte)
  | emOr (m : Byte)
  | emClr (m : Byte)
  | loadImgs
  | blSet (b : Bool)
  | curHome
  | curTo (c : BitVec 6) (r : BitVec 2)
  | curAdv
  | curNl
  deriving DecidableEq, Repr

/-- A micro-op of `SEQ` (10_state.md R36): a payload before the backlight bit is ORed in, a wait in µs, an update. -/
inductive MicroOp where
  | put (p : Byte)
  | wait (t : Nat)
  | set (u : Update)
  deriving DecidableEq, Repr

/-- `CUR`, the owner of `SEQ` (10_state.md R37). With `REQ` stands the held completion code. Code 3 of the register "never
occurs" and has no constructor (93_implementation_defined.md S12; assumption log 15). -/
inductive Owner where
  | none
  | init
  | req (held : Code)
  deriving DecidableEq, Repr

/-- The state of the block: the twelve items of 10_state.md R20, the response port that R42 gives a reset value, the
internal wait timer of 60_exceptions.md R162, and three fields of the model: the parameters and the environment's inputs
(assumption log 2, 5, 8). -/
structure State where
  /-- `STATE` (R33). -/
  fsm      : Fsm
  /-- `SEQ`, head first (R36). -/
  seq      : List MicroOp
  /-- `CUR` (R37). -/
  cur      : Owner
  /-- `TXP` (R39). -/
  txp      : Bool
  /-- `FS_IMG` (R24). -/
  fsImg    : Byte
  /-- `DC_IMG` (R25). -/
  dcImg    : Byte
  /-- `EM_IMG` (R26). -/
  emImg    : Byte
  /-- `BL` (R29). -/
  bl       : Bool
  /-- `COL` (R30). -/
  col      : BitVec 6
  /-- `ROW` (R30). -/
  row      : BitVec 2
  /-- `GEOM` (R31). -/
  geom     : Geometry
  /-- `ADDR7` (R31). -/
  addr7    : BitVec 7
  /-- `RSP_VALID` (R22). -/
  rspValid : Bool
  /-- `RSP_CODE` (R22). -/
  rspCode  : Code
  /-- The timer of the waits, in µs since the previous micro-op completed (60_exceptions.md R162). -/
  timer    : Nat
  /-- The parameters of 00_scope.md R9 to R11; no step writes them. -/
  params   : Params
  /-- The pins of the next steps, first step first. -/
  script   : List Pins
  /-- The number of the step, which free pins depend on where the script names none. -/
  tick     : Nat
  deriving DecidableEq, Repr

/-- The reasons the block faults: none. Every outcome the spec names is a state of the block: the error codes, the FAILED
state, and a transport that never answers, which is "stuck, not ... a fault" (20_memory.md R51, 60_exceptions.md R167). -/
inductive Fault where
  deriving DecidableEq, Repr

/-- The reasons the model refuses a step. -/
inductive Refusal where
  /-- Raised by an arm of exec whose instruction has no meaning yet; no arm does. Safe: the machine stops where the block
  goes on. -/
  | notModelled (mnemonic : String)
  deriving DecidableEq, Repr

/-- The block right after reset (10_state.md R42). The straps hold 16×2 and the default address 0x27 (00_scope.md R8;
assumption log 6); `RSP_CODE` (log 7), the timer and the model's own fields hold the values of log 5 and 8. -/
def State.reset : State where
  fsm := .uninit
  seq := []
  cur := .none
  txp := false
  fsImg := 0x28
  dcImg := 0x08
  emImg := 0x06
  bl := false
  col := 0
  row := 0
  geom := .g16x2
  addr7 := 0x27
  rspValid := false
  rspCode := .ok
  timer := 0
  params := Params.default
  script := []
  tick := 0

end Sys2Proof.Machine
end

