-- ==== Sys2Proof/Machine/Operands.lean ====
section
/-!
DEFINITION. The operand forms of the requests: the glyph bytes (30_encoding.md R67), the geometry outputs and the DDRAM
address mapper (42_addressing.md R125 to R131), the range check of a position, and the strap code.
-/

namespace Sys2Proof.Machine

/-- The newline character code (00_scope.md R14). -/
def nl : Byte := 0x0A

/-- `GLYPH[i]` (30_encoding.md R67). -/
def glyphByte (g : Glyph) (i : Nat) : Byte := g.extractLsb' (8 * i) 8

/-- The geometry of a strap code (10_state.md R31). -/
def Geometry.ofCode (c : BitVec 2) : Geometry :=
  match c.toNat with
  | 0 => .g16x2
  | 1 => .g20x2
  | 2 => .g20x4
  | _ => .g40x2

/-- `columns()` (42_addressing.md R126). -/
def columns : Geometry → Nat
  | .g16x2 => 16
  | .g20x2 => 20
  | .g20x4 => 20
  | .g40x2 => 40

/-- `rows()` (42_addressing.md R126). -/
def rows : Geometry → Nat
  | .g16x2 => 2
  | .g20x2 => 2
  | .g20x4 => 4
  | .g40x2 => 2

/-- The row bases of the 20×4 panel, for rows 0 to 3 (42_addressing.md R127). -/
def rowBase20x4 (r : Nat) : Nat :=
  match r with
  | 0 => 0x80
  | 1 => 0xC0
  | 2 => 0x94
  | _ => 0xD4

/-- `address(c, r)` (42_addressing.md R127): the set-DDRAM-address command byte and the flag `valid`. Sums are taken modulo
256 (R129); a 20×4 row of 4 or more gives the sentinel 0xFF, not valid (R128). -/
def address (g : Geometry) (c r : Byte) : Byte × Bool :=
  match g with
  | .g20x4 =>
    if r.toNat < 4 then (BitVec.ofNat 8 (rowBase20x4 r.toNat + c.toNat), true) else (0xFF, false)
  | .g16x2 | .g20x2 | .g40x2 => (BitVec.ofNat 8 (0x80 + r.toNat * 0x40 + c.toNat), true)

/-- `inrange(c, r)` (42_addressing.md R131). -/
def inrange (g : Geometry) (c r : Byte) : Bool :=
  decide (c.toNat < columns g) && decide (r.toNat < rows g)

/-- The cursor as the mapper's two 8-bit inputs (43_stream.md R139: `address(COL, ROW)`). -/
def cursorAddress (s : State) : Byte × Bool := address s.geom (s.col.zeroExtend 8) (s.row.zeroExtend 8)

end Sys2Proof.Machine
end

