-- ==== Sys2Proof/Machine/Flags.lean ====
section
/-!
DEFINITION. The flags of the display-control register file (10_state.md R24 to R29), the updates a `SET` applies to state
(10_state.md R36, 43_stream.md R140, R141), and the status and handshake outputs, which are reads of state (10_state.md R21,
R32, R40).
-/

namespace Sys2Proof.Machine

/-- The power-on value of `FS_IMG`: 4-bit, 2-line, 5×8 (10_state.md R24). -/
def fsPowerOn : Byte := 0x28

/-- The power-on value of `DC_IMG`: display, cursor and blink off (10_state.md R25). -/
def dcPowerOn : Byte := 0x08

/-- The power-on value of `EM_IMG`: left-to-right, no auto-scroll (10_state.md R26). -/
def emPowerOn : Byte := 0x06

/-- Flag D of `DC_IMG`, display on (10_state.md R25). -/
def dcD : Byte := 0x04

/-- Flag C of `DC_IMG`, cursor shown (10_state.md R25). -/
def dcC : Byte := 0x02

/-- Flag B of `DC_IMG`, cursor blinks (10_state.md R25). -/
def dcB : Byte := 0x01

/-- Flag ID of `EM_IMG`, left-to-right (10_state.md R26). -/
def emId : Byte := 0x02

/-- Flag S of `EM_IMG`, auto-scroll (10_state.md R26). -/
def emS : Byte := 0x01

/-- Sets the bits of a mask and keeps the others (10_state.md R27). -/
def orFlag (image m : Byte) : Byte := image ||| m

/-- Clears the bits of a mask and keeps the others (10_state.md R27). -/
def clrFlag (image m : Byte) : Byte := image &&& ~~~m

/-- The row below, "wrapping row to 0 if it reaches `rows()`" (43_stream.md R140, R141). -/
def nextRow (g : Geometry) (r : BitVec 2) : BitVec 2 :=
  if r.toNat + 1 = rows g then 0 else r + 1

/-- "if column reaches `columns()`" after the advance (43_stream.md R140). -/
def atLastColumn (g : Geometry) (c : BitVec 6) : Bool := decide (c.toNat + 1 = columns g)

/-- The effect of one update (10_state.md R36, 43_stream.md R140, R141). -/
def applyUpdate (u : Update) (s : State) : State :=
  match u with
  | .dcOr m => { s with dcImg := orFlag s.dcImg m }
  | .dcClr m => { s with dcImg := clrFlag s.dcImg m }
  | .emOr m => { s with emImg := orFlag s.emImg m }
  | .emClr m => { s with emImg := clrFlag s.emImg m }
  | .loadImgs => { s with fsImg := fsPowerOn, dcImg := dcPowerOn, emImg := emPowerOn }
  | .blSet b => { s with bl := b }
  | .curHome => { s with col := 0, row := 0 }
  | .curTo c r => { s with col := c, row := r }
  | .curAdv =>
    { s with
      col := if atLastColumn s.geom s.col then 0 else s.col + 1
      row := if atLastColumn s.geom s.col then nextRow s.geom s.row else s.row }
  | .curNl => { s with col := 0, row := nextRow s.geom s.row }

/-- `REQ_READY` (10_state.md R21). -/
def reqReady (s : State) : Bool :=
  decide (s.fsm = .ready) && decide (s.seq = []) && decide (s.cur = .none)

/-- `STATUS_STATE[1:0]` (10_state.md R33, R40). -/
def statusState (s : State) : BitVec 2 :=
  match s.fsm with
  | .uninit => 0
  | .initializing => 1
  | .ready => 2
  | .failed => 3

/-- `STATUS_BUSY` (10_state.md R40). -/
def statusBusy (s : State) : Bool := decide (s.seq ≠ []) || decide (s.cur ≠ .none)

/-- `STATUS_INIT_FAIL` (10_state.md R40). -/
def statusInitFail (s : State) : Bool := decide (s.fsm = .failed)

/-- `COLS[5:0]` (10_state.md R32). -/
def colsOut (s : State) : BitVec 6 := BitVec.ofNat 6 (columns s.geom)

/-- `ROWS[2:0]` (10_state.md R32). -/
def rowsOut (s : State) : BitVec 3 := BitVec.ofNat 3 (rows s.geom)

/-- The 2-bit code on `RSP_CODE` (60_exceptions.md R150). -/
def Code.toBits : Code → BitVec 2
  | .ok => 0
  | .errIllegal => 1
  | .errAddr => 2
  | .errIo => 3

end Sys2Proof.Machine
end

