-- ==== Sys2Proof/Machine/Ops.lean ====
section
/-!
DEFINITION. The named operations of the block: the payload byte (30_encoding.md R70), the macros NIBBLE, FRAME and BLWRITE
(40_nibble_framer.md R88 to R90), loading a request, ending one with an error code and answering it (60_exceptions.md R150
to R158), the transport port (20_memory.md R50) and the execution of one micro-op (40_nibble_framer.md R87, R91).
-/

namespace Sys2Proof.Machine

/-- One signal at a position of the payload's low nibble (30_encoding.md R70). -/
def signalBit (pos : Fin 4) (level : Bool) : Byte := (BitVec.ofBool level).zeroExtend 8 <<< pos.val

/-- The level of the `RS` signal (20_memory.md R48). -/
def RegSel.level : RegSel → Bool
  | .cmd => false
  | .data => true

/-- `NIBBLE(n, rs)` (40_nibble_framer.md R88): enable low, high, low, with their waits. -/
def nibble (p : Params) (n : Byte) (rs : RegSel) : List MicroOp :=
  let q := n ||| signalBit p.bitRs rs.level
  [.put q, .wait p.tSetup, .put (q ||| signalBit p.bitEn true), .wait p.tPulse, .put q, .wait p.tExec]

/-- `FRAME(v, rs)` (40_nibble_framer.md R89): high nibble first. -/
def frame (p : Params) (v : Byte) (rs : RegSel) : List MicroOp :=
  nibble p (v &&& 0xF0) rs ++ nibble p ((v <<< 4) &&& 0xF0) rs

/-- `BLWRITE()` (40_nibble_framer.md R90). -/
def blWrite : List MicroOp := [.put 0x00]

/-- One transport write as the transport receives it (20_memory.md R50). -/
structure TxWrite where
  addr : Byte
  data : Byte
  deriving DecidableEq, Repr

/-- `ADDR8 = {ADDR7, 0}` (20_memory.md R50). -/
def addr8 (a : BitVec 7) : Byte := a ++ (0 : BitVec 1)

/-- The byte a `PUT(p)` sends: the backlight bit is ORed in at execution (40_nibble_framer.md R87). -/
def txByte (p : Params) (bl : Bool) (payload : Byte) : Byte := payload ||| signalBit p.bitBl bl

/-- The transport port `TX_VALID`, `TX_ADDR`, `TX_DATA` (20_memory.md R50): a write stands there while `TXP = 1`
(assumption log 14). -/
def txPort (s : State) : Option TxWrite :=
  if s.txp then
    match s.seq with
    | .put p :: _ => some ⟨addr8 s.addr7, txByte s.params s.bl p⟩
    | _ => none
  else none

/-- A request that runs: its expansion in `SEQ`, held code `OK` (10_state.md R37, R38). With the empty list it is a
permitted no-op (60_exceptions.md R150). -/
def loadSeq (ops : List MicroOp) (s : State) : State := { s with seq := ops, cur := .req .ok }

/-- `raise Error(code)`: the one way a request ends early (60_exceptions.md R150, R151, R152, R153, R157). Nothing of the
request runs any more, the code is held for the response, and no register changes. -/
def raiseError (code : Code) (s : State) : State := { s with seq := [], cur := .req code }

/-- The response to the request in progress (10_state.md R22, R38), after which the block is idle (60_exceptions.md R158). -/
def respond (code : Code) (s : State) : State := { s with rspValid := true, rspCode := code, cur := .none }

/-- The head micro-op has completed: `SEQ` moves on and the timer of the next wait starts (10_state.md R35, R91). -/
def popSeq (rest : List MicroOp) (s : State) : State := { s with seq := rest, timer := 0 }

/-- The failure of the head `PUT` (40_nibble_framer.md R87): a request ends with `ERR_IO` (60_exceptions.md R153), the
initialization puts the block in FAILED (R155). With no owner, which never occurs, `SEQ` is dropped (assumption log 10). -/
def abortOwner (s : State) : State :=
  match s.cur with
  | .init => { s with fsm := .failed, seq := [], cur := .none, txp := false }
  | .req _ => raiseError .errIo { s with txp := false }
  | .none => { s with seq := [], txp := false }

/-- `PUT` (40_nibble_framer.md R87, 10_state.md R39): issue the write, wait for its answer, then pop or abort. The answer pins
count only while the write is outstanding (assumption log 3); an answer names no write, so one that comes late, after a reset and
the issue of the first write after it, is taken as that write's (the model's choice, assumption log 17). -/
def execPut (pins : Pins) (rest : List MicroOp) (s : State) : State :=
  if s.txp then
    if pins.txDone then
      if pins.txOk then popSeq rest { s with txp := false } else abortOwner s
    else s
  else { s with txp := true }

/-- `WAIT(t)` (40_nibble_framer.md R91): popped no earlier than `t` µs after the previous micro-op completed (assumption log
4). -/
def execWait (pins : Pins) (t : Nat) (rest : List MicroOp) (s : State) : State :=
  if t ≤ s.timer + pins.elapsedUs then popSeq rest s else { s with timer := s.timer + pins.elapsedUs }

/-- One step of the head micro-op (10_state.md R36, R38). -/
def execMicroOp (pins : Pins) (op : MicroOp) (rest : List MicroOp) (s : State) : State :=
  match op with
  | .put _ => execPut pins rest s
  | .wait t => execWait pins t rest s
  | .set u => popSeq rest (applyUpdate u s)

end Sys2Proof.Machine
end

