-- ==== Sys2Proof/Machine/Addressing.lean ====
section
/-!
DEFINITION. LOCATE and CHARACTER (42_addressing.md).
-/

namespace Sys2Proof.Machine

/-- LOCATE (42_addressing.md R132): the position is checked before anything changes; `COL <- c[5:0]`, `ROW <- r[1:0]`. -/
def execLocate (c r : Byte) (s : State) : Host.Outcome State Fault Refusal :=
  if inrange s.geom c r then .next (loadSeq [.set (.curTo (c.truncate 6) (r.truncate 2))] s)
  else .next (raiseError .errAddr s)

/-- CHARACTER (42_addressing.md R133): the address command, then the value as data; the cursor stays. -/
def execCharacter (c r v : Byte) (s : State) : Host.Outcome State Fault Refusal :=
  if inrange s.geom c r && (address s.geom c r).2 then
    .next (loadSeq (frame s.params (address s.geom c r).1 .cmd ++ frame s.params v .data) s)
  else .next (raiseError .errAddr s)

end Sys2Proof.Machine
end

