-- ==== Sys2Proof/Machine/Controller.lean ====
section
/-!
DEFINITION. The controller state machine (41_controller.md): the initialization sequence, CLS, HOME and the 14 DISPLAY modes.
A meaning is what the block does in the step that accepts the request: it loads the expansion into `SEQ` (10_state.md R38).
-/

namespace Sys2Proof.Machine

/-- `INIT_SEQ` (41_controller.md R99). The images it frames are those `LOAD_IMGS` has loaded (10_state.md R36). -/
def initSeq (p : Params) : List MicroOp :=
  [.set .loadImgs, .set (.blSet false)]
  ++ nibble p 0x30 .cmd ++ [.wait p.tInit1]
  ++ nibble p 0x30 .cmd ++ [.wait p.tInit2]
  ++ nibble p 0x30 .cmd ++ [.wait p.tInit3]
  ++ nibble p 0x20 .cmd
  ++ frame p fsPowerOn .cmd
  ++ frame p dcPowerOn .cmd
  ++ [.set (.dcOr dcD)] ++ frame p 0x0C .cmd
  ++ [.set (.dcClr dcC)] ++ frame p 0x0C .cmd
  ++ [.set (.dcClr dcB)] ++ frame p 0x0C .cmd
  ++ frame p 0x01 .cmd ++ [.wait p.tLong]
  ++ frame p emPowerOn .cmd
  ++ frame p 0x02 .cmd ++ [.wait p.tLong] ++ [.set .curHome]
  ++ [.set (.blSet true)] ++ blWrite

/-- The return-home command with its wait (41_controller.md R107, R108). -/
def homeCommand (p : Params) : List MicroOp := frame p 0x02 .cmd ++ [.wait p.tLong]

/-- Kind (a), setting a flag: write `DC_IMG`, then re-emit it whole (41_controller.md section 3, 10_state.md R28). -/
def dcSetMode (m : Byte) (s : State) : State :=
  loadSeq (.set (.dcOr m) :: frame s.params (orFlag s.dcImg m) .cmd) s

/-- Kind (a), clearing a flag (41_controller.md section 3, 10_state.md R28). -/
def dcClrMode (m : Byte) (s : State) : State :=
  loadSeq (.set (.dcClr m) :: frame s.params (clrFlag s.dcImg m) .cmd) s

/-- Kind (b), setting a flag: write `EM_IMG`, then re-emit it whole (41_controller.md section 3, 10_state.md R28). -/
def emSetMode (m : Byte) (s : State) : State :=
  loadSeq (.set (.emOr m) :: frame s.params (orFlag s.emImg m) .cmd) s

/-- Kind (b), clearing a flag (41_controller.md section 3, 10_state.md R28). -/
def emClrMode (m : Byte) (s : State) : State :=
  loadSeq (.set (.emClr m) :: frame s.params (clrFlag s.emImg m) .cmd) s

/-- Kind (c): a one-shot command (41_controller.md R115, R116). -/
def shiftMode (command : Byte) (s : State) : State := loadSeq (frame s.params command .cmd) s

/-- Kind (d): the backlight bit and its side-channel write (41_controller.md R121, R122). -/
def backlightMode (b : Bool) (s : State) : State := loadSeq (.set (.blSet b) :: blWrite) s

/-- CLS (41_controller.md R107). -/
def execCls (s : State) : Host.Outcome State Fault Refusal :=
  .next (loadSeq (frame s.params 0x01 .cmd ++ [.wait s.params.tLong]
    ++ (if s.params.clsHome then homeCommand s.params else []) ++ [.set .curHome]) s)

/-- HOME (41_controller.md R108). -/
def execHome (s : State) : Host.Outcome State Fault Refusal :=
  .next (loadSeq (homeCommand s.params ++ [.set .curHome]) s)

/-- DISPLAY_ON (41_controller.md R109). -/
def execDisplayOn (s : State) : Host.Outcome State Fault Refusal := .next (dcSetMode dcD s)

/-- DISPLAY_OFF (41_controller.md R110). -/
def execDisplayOff (s : State) : Host.Outcome State Fault Refusal := .next (dcClrMode dcD s)

/-- CURSOR_ON (41_controller.md R111). -/
def execCursorOn (s : State) : Host.Outcome State Fault Refusal := .next (dcSetMode dcC s)

/-- CURSOR_OFF (41_controller.md R112). -/
def execCursorOff (s : State) : Host.Outcome State Fault Refusal := .next (dcClrMode dcC s)

/-- BLINK_ON (41_controller.md R113). -/
def execBlinkOn (s : State) : Host.Outcome State Fault Refusal := .next (dcSetMode dcB s)

/-- BLINK_OFF (41_controller.md R114). -/
def execBlinkOff (s : State) : Host.Outcome State Fault Refusal := .next (dcClrMode dcB s)

/-- SCROLL_LEFT (41_controller.md R115). -/
def execScrollLeft (s : State) : Host.Outcome State Fault Refusal := .next (shiftMode 0x18 s)

/-- SCROLL_RIGHT (41_controller.md R116). -/
def execScrollRight (s : State) : Host.Outcome State Fault Refusal := .next (shiftMode 0x1C s)

/-- LEFT_TO_RIGHT (41_controller.md R117). -/
def execLeftToRight (s : State) : Host.Outcome State Fault Refusal := .next (emSetMode emId s)

/-- RIGHT_TO_LEFT (41_controller.md R118). -/
def execRightToLeft (s : State) : Host.Outcome State Fault Refusal := .next (emClrMode emId s)

/-- AUTOSCROLL_ON (41_controller.md R119). -/
def execAutoscrollOn (s : State) : Host.Outcome State Fault Refusal := .next (emSetMode emS s)

/-- AUTOSCROLL_OFF (41_controller.md R120). -/
def execAutoscrollOff (s : State) : Host.Outcome State Fault Refusal := .next (emClrMode emS s)

/-- BACKLIGHT_ON (41_controller.md R121). -/
def execBacklightOn (s : State) : Host.Outcome State Fault Refusal := .next (backlightMode true s)

/-- BACKLIGHT_OFF (41_controller.md R122). -/
def execBacklightOff (s : State) : Host.Outcome State Fault Refusal := .next (backlightMode false s)

end Sys2Proof.Machine
end

