-- ==== Sys2Proof/Machine/GlyphUpload.lean ====
section
/-!
DEFINITION. CREATE, the custom glyph upload (44_glyph.md).
-/

namespace Sys2Proof.Machine

/-- The eight data frames of a glyph, in array order (44_glyph.md R145, R147). -/
def glyphFrames (p : Params) (g : Glyph) : List MicroOp :=
  (List.range 8).flatMap fun i => frame p (glyphByte g i) .data

/-- CREATE (44_glyph.md R145): a slot above 7 is a no-op that completes `OK` (R146). -/
def execCreate (slot : Byte) (g : Glyph) (s : State) : Host.Outcome State Fault Refusal :=
  if 7 < slot.toNat then .next (loadSeq [] s)
  else .next (loadSeq (frame s.params (0x40#8 ||| (slot <<< 3)) .cmd ++ glyphFrames s.params g) s)

end Sys2Proof.Machine
end

