-- ==== Sys2Proof/Machine/Stream.lean ====
section
/-!
DEFINITION. PUTC, the character stream sink (43_stream.md).
-/

namespace Sys2Proof.Machine

/-- PUTC (43_stream.md R139): a newline moves the cursor and sends nothing; any other character is written at the cursor,
with its own address command, and the cursor advances after the two frames. -/
def execPutc (ch : Byte) (s : State) : Host.Outcome State Fault Refusal :=
  if ch = nl then .next (loadSeq [.set .curNl] s)
  else
    .next (loadSeq (frame s.params (cursorAddress s).1 .cmd ++ frame s.params ch .data ++ [.set .curAdv]) s)

end Sys2Proof.Machine
end

