-- ==== Sys2Proof/Machine/Sequencer.lean ====
section
/-!
DEFINITION. The sequencer's cases of the step relation (10_state.md R38) around the execution of a micro-op: reset, the
power-on settle, the end of initialization, and the acceptance of a request word.
-/

namespace Sys2Proof.Machine

/-- The pins of this step: the script's, or free ones (assumption log 2). -/
def State.pins (s : State) : Pins :=
  match s.script with
  | p :: _ => p
  | [] => Config.freePins s.tick

/-- What every step does beside its case of 10_state.md R38: the pins of this step are past, and `RSP_VALID`, "a one-step
event" (R22), falls unless this step raises it again. -/
def advance (s : State) : State :=
  { s with script := s.script.tail, tick := s.tick + 1, rspValid := false }

/-- The step while `RESET` is asserted: the reset values, and the straps sampled (10_state.md R42, 70_reset_and_hazards.md
R168). The model's own fields other than the timer stay. -/
def resetBlock (pins : Pins) (s : State) : State :=
  { State.reset with
    geom := Geometry.ofCode pins.geomIn
    addr7 := pins.addr7In
    params := s.params
    script := s.script
    tick := s.tick }

/-- The step in UNINIT after the release: initialization starts when `T_PWR_SETTLE` has passed (10_state.md R34,
70_reset_and_hazards.md R170). -/
def settle (pins : Pins) (s : State) : State :=
  if s.params.tPwrSettle ≤ s.timer + pins.elapsedUs then
    { s with fsm := .initializing, seq := initSeq s.params, cur := .init, timer := 0 }
  else { s with timer := s.timer + pins.elapsedUs }

/-- The end of the initialization sequence (10_state.md R34, R38). -/
def finishInit (s : State) : State := { s with fsm := .ready, cur := .none }

/-- The acceptance of a request word (10_state.md R38): an illegal word is held as `ERR_ILLEGAL` (60_exceptions.md R151), any
other word runs as the instruction it decodes to. -/
def accept (pins : Pins) (s : State) : Host.Outcome State Fault Refusal :=
  match decode pins.reqWord pins.reqGlyph with
  | .ok i => exec i s
  | .error _ => .next (raiseError .errIllegal s)

end Sys2Proof.Machine
end

