-- ==== Sys2Proof/Machine/Step.lean ====
section
/-!
DEFINITION. One step of the block (10_state.md R38), and the placing of a request where the next step takes it.
-/

namespace Sys2Proof.Machine

/-- "In each step, exactly the first of the following cases that applies happens" (10_state.md R38). A case with no step
leaves the block as it is. -/
def step (s : State) : Host.Outcome State Fault Refusal :=
  if s.pins.reset then .next (resetBlock s.pins (advance s))
  else if s.fsm = .uninit then .next (settle s.pins (advance s))
  else if s.fsm = .failed then .next (advance s)
  else match s.seq with
    | op :: rest => .next (execMicroOp s.pins op rest (advance s))
    | [] =>
      match s.cur with
      | .init => .next (finishInit (advance s))
      | .req code => .next (respond code (advance s))
      | .none => if s.pins.reqValid && reqReady s then accept s.pins (advance s) else .next (advance s)

/-- The request pins with one request on them, `RESET` low and no answer of the transport: bits 31:0 of `w` are the word,
the bits above them the glyph operand, as decodeTableWord reads them. -/
def requestPins (nbits w : Nat) : Pins where
  reset := false
  geomIn := 0
  addr7In := 0
  reqValid := true
  reqWord := BitVec.ofNat 32 (w % 2 ^ nbits)
  reqGlyph := BitVec.ofNat 64 (w % 2 ^ nbits / 2 ^ 32)
  txDone := false
  txOk := false
  elapsedUs := 0

/-- `s`, idle in READY with the request on the port, so that the next step accepts it. The block fetches nothing (20_memory.md
R61): a program is the requests the host presents, and the first is accepted after initialization (assumption log 9). -/
def State.withFetchWord (s : State) (nbits w : Nat) : State :=
  { s with
    fsm := .ready
    seq := []
    cur := .none
    txp := false
    script := requestPins nbits w :: s.script }

end Sys2Proof.Machine
end

