-- ==== Sys2Proof/Safety.lean ====
section
/-!
DEFINITION. The terms claims are stated in: runs of the machine and what they show outside, what a list of micro-ops stands
for as a whole, the bytes of a nibble and a byte as 30_encoding.md R70 lays them out, the words R75 calls illegal, and the
invariant of the block.
-/

namespace Sys2Proof.Machine

/-- The state after one step. -/
def next (s : State) : State :=
  match step s with
  | .next t => t
  | .fault _ => s
  | .refused _ => s

/-- The state after `k` steps. -/
def after : Nat → State → State
  | 0, s => s
  | k + 1, s => after k (next s)

/-- The write this step issues: the one that stands on the transport port after it and did not before (20_memory.md R50). -/
def issues (s : State) : List TxWrite :=
  if txPort s = none then (txPort (next s)).toList else []

/-- The transport writes that `k` steps issue, in order: "The block's only external effect". -/
def trace : Nat → State → List TxWrite
  | 0, _ => []
  | k + 1, s => issues s ++ trace k (next s)

/-- The responses that `k` steps emit, in order (10_state.md R22). -/
def responses : Nat → State → List Code
  | 0, _ => []
  | k + 1, s => (if (next s).rspValid then [(next s).rspCode] else []) ++ responses k (next s)

/-- The µs that pass in `k` steps. -/
def elapsed : Nat → State → Nat
  | 0, _ => 0
  | k + 1, s => s.pins.elapsedUs + elapsed k (next s)

/-- The bytes a list of micro-ops sends, from a backlight level that a `BL_SET` of the list changes for what follows it
(40_nibble_framer.md R87). -/
def bytesOf (p : Params) : Bool → List MicroOp → List Byte
  | _, [] => []
  | bl, .put q :: ops => txByte p bl q :: bytesOf p bl ops
  | bl, .wait _ :: ops => bytesOf p bl ops
  | _, .set (.blSet b) :: ops => bytesOf p b ops
  | bl, .set _ :: ops => bytesOf p bl ops

/-- The least time a list of micro-ops takes: its waits add (40_nibble_framer.md R92). -/
def waitsOf : List MicroOp → Nat
  | [] => 0
  | .wait t :: ops => t + waitsOf ops
  | .put _ :: ops => waitsOf ops
  | .set _ :: ops => waitsOf ops

/-- The updates of a list of micro-ops, in order. -/
def updatesOf : List MicroOp → List Update
  | [] => []
  | .set u :: ops => u :: updatesOf ops
  | .put _ :: ops => updatesOf ops
  | .wait _ :: ops => updatesOf ops

/-- The updates of a list of micro-ops, applied in order. -/
def applySets : List MicroOp → State → State
  | [], s => s
  | .set u :: ops, s => applySets ops (applyUpdate u s)
  | .put _ :: ops, s => applySets ops s
  | .wait _ :: ops, s => applySets ops s

/-- The steps a list of micro-ops takes when nothing makes it wait: two for a `PUT` (issue and answer), one for the others. -/
def stepsOf : List MicroOp → Nat
  | [] => 0
  | .put _ :: ops => 2 + stepsOf ops
  | .wait _ :: ops => 1 + stepsOf ops
  | .set _ :: ops => 1 + stepsOf ops

/-- A payload by its signals (30_encoding.md R70): the nibble in bits 7..4, RS, EN and BL at their positions, RW 0. -/
def payload (p : Params) (n : BitVec 4) (rs : RegSel) (en bl : Bool) : Byte :=
  (n ++ 0#4) ||| signalBit p.bitRs rs.level ||| signalBit p.bitEn en ||| signalBit p.bitBl bl

/-- The three payloads of one nibble: enable low, high, low (40_nibble_framer.md R83). -/
def pulseBytes (p : Params) (bl : Bool) (rs : RegSel) (n : BitVec 4) : List Byte :=
  [payload p n rs false bl, payload p n rs true bl, payload p n rs false bl]

/-- The six payloads of one LCD byte, high nibble first (40_nibble_framer.md R84). -/
def wireBytes (p : Params) (bl : Bool) (rs : RegSel) (v : Byte) : List Byte :=
  pulseBytes p bl rs (v.extractLsb' 4 4) ++ pulseBytes p bl rs (v.extractLsb' 0 4)

/-- The words 30_encoding.md R75 lists as illegal. -/
def IllegalWord (w : Word) : Prop :=
  let op := w.toNat / 2 ^ 28
  op = 0 ∨ 8 ≤ op
  ∨ w &&& 0x0F000000 ≠ 0
  ∨ ((op = 1 ∨ op = 2) ∧ w &&& 0x00FFFFFF ≠ 0)
  ∨ (op = 3 ∧ w &&& 0x000000FF ≠ 0)
  ∨ (op = 4 ∧ (w &&& 0x00FFFF00 ≠ 0 ∨ 0x0D < w.toNat % 2 ^ 8))
  ∨ (op = 6 ∧ w &&& 0x0000FFFF ≠ 0)
  ∨ (op = 7 ∧ w &&& 0x00FFFF00 ≠ 0)

/-- The command bytes of 30_encoding.md R73 on one panel (besides the raw nibbles of initialization). -/
def CommandByte (g : Geometry) (v : Byte) : Prop :=
  v = 0x01 ∨ v = 0x02 ∨ (∃ m : Byte, v = 0x04 ||| (m &&& 0x03)) ∨ (∃ m : Byte, v = 0x08 ||| (m &&& 0x07))
  ∨ v = 0x18 ∨ v = 0x1C ∨ v = 0x28 ∨ (∃ slot : Byte, slot.toNat ≤ 7 ∧ v = 0x40#8 ||| (slot <<< 3))
  ∨ ∃ c r, inrange g c r = true ∧ v = (address g c r).1

/-- A list of micro-ops in which the enable line rises only inside a whole pulse with its three waits, and is low before and
after (40_nibble_framer.md R86, R88), and which holds RW and BL at 0 (30_encoding.md R72, 40_nibble_framer.md R87). -/
inductive Pulsed (p : Params) : List MicroOp → Prop where
  | nil : Pulsed p []
  | pulse (q : Byte) (ops : List MicroOp)
      (en : q.getLsbD p.bitEn = false) (rw : q.getLsbD p.bitRw = false) (bl : q.getLsbD p.bitBl = false)
      (rest : Pulsed p ops) :
      Pulsed p (.put q :: .wait p.tSetup :: .put (q ||| signalBit p.bitEn true) :: .wait p.tPulse :: .put q
        :: .wait p.tExec :: ops)
  | backlight (ops : List MicroOp) (rest : Pulsed p ops) : Pulsed p (.put 0 :: ops)
  | wait (t : Nat) (ops : List MicroOp) (rest : Pulsed p ops) : Pulsed p (.wait t :: ops)
  | set (u : Update) (ops : List MicroOp) (rest : Pulsed p ops) : Pulsed p (.set u :: ops)

/-- The six data registers of 10_state.md R23 and the two straps. -/
def registers (s : State) : Byte × Byte × Byte × Bool × BitVec 6 × BitVec 2 × Geometry × BitVec 7 :=
  (s.fsImg, s.dcImg, s.emImg, s.bl, s.col, s.row, s.geom, s.addr7)

/-- The cursor stays "within `[0, columns())` / `[0, rows())`" (10_state.md R30). -/
abbrev CursorInRange (s : State) : Prop := s.col.toNat < columns s.geom ∧ s.row.toNat < rows s.geom

/-- A micro-op that keeps the hardwired bits, the cursor range and the RW and BL positions of a payload. -/
def OpSafe (p : Params) (g : Geometry) : MicroOp → Prop
  | .put q => q.getLsbD p.bitRw = false ∧ q.getLsbD p.bitBl = false
  | .wait _ => True
  | .set (.dcOr m) => m &&& 0xF8 = 0
  | .set (.dcClr m) => m &&& 0xF8 = 0
  | .set (.emOr m) => m &&& 0xFC = 0
  | .set (.emClr m) => m &&& 0xFC = 0
  | .set (.curTo c r) => c.toNat < columns g ∧ r.toNat < rows g
  | .set .loadImgs => True
  | .set (.blSet _) => True
  | .set .curHome => True
  | .set .curAdv => True
  | .set .curNl => True

/-- The invariant of the block: the register images keep their hardwired bits (10_state.md R24 to R26), the cursor stays in
range (R30), `SEQ`, `CUR`, `TXP` and `STATE` agree (R33, R37, R39), what is pending keeps all of this, and the timer runs only
where something is waited for. -/
structure Inv (s : State) : Prop where
  positions   : s.params.Distinct
  functionSet : s.fsImg = 0x28
  displayCtl  : s.dcImg &&& 0xF8 = 0x08
  entryMode   : s.emImg &&& 0xFC = 0x04
  cursor      : CursorInRange s
  pending     : ∀ op ∈ s.seq, OpSafe s.params s.geom op
  uninitIdle  : s.fsm = .uninit → s.seq = [] ∧ s.cur = .none
  failedIdle  : s.fsm = .failed → s.seq = [] ∧ s.cur = .none
  initOwner   : s.fsm = .initializing ↔ s.cur = .init
  reqOwner    : ∀ c, s.cur = .req c → s.fsm = .ready
  owned       : s.cur = .none → s.seq = []
  heldError   : ∀ c, s.cur = .req c → c ≠ .ok → s.seq = []
  outstanding : s.txp = true → ∃ q ops, s.seq = .put q :: ops
  timerRuns   : 0 < s.timer → s.fsm = .uninit ∨ ∃ t ops, s.seq = .wait t :: ops ∧ s.timer < t

/-- The longest wait of the parameters. -/
def longestWait (p : Params) : Nat :=
  p.tSetup + p.tPulse + p.tExec + p.tInit1 + p.tInit2 + p.tInit3 + p.tLong + p.tPwrSettle

/-- The pins of an environment that makes nothing wait: no reset, every write answered `ok` at once, and time enough for any
wait between two steps. -/
def Prompt (p : Params) (pins : Pins) : Prop :=
  pins.reset = false ∧ pins.txDone = true ∧ pins.txOk = true ∧ longestWait p ≤ pins.elapsedUs

end Sys2Proof.Machine
end

