-- ==== Sys2Proof/Certificates/Slice0/Obligations.lean ====
section
/-!
DEFINITION. The statements for the provers, from the numbered rules of spec/. What a request does is said of the list its
acceptance loads (bytesOf, applySets, waitsOf of Safety.lean); the statements about runs say that a run is that list.
-/

open Sys2Proof Sys2Proof.Machine

/-! ### Encoding (30_encoding.md) -/

/-- Words written out from 30_encoding.md R65 and R66, and the words of 95_test_vectors.md V9, decode as they stand there. -/
def Obligations.SpecWordsDecodeAsWritten : Prop :=
  decodeTableWord 32 0x10000000 = some .cls ∧ decodeTableWord 32 0x20000000 = some .home
  ∧ decodeTableWord 32 0x300F0100 = some (.locate 15 1) ∧ decodeTableWord 32 0x40000002 = some .cursorOn
  ∧ decodeTableWord 32 0x4000000D = some .backlightOff ∧ decodeTableWord 32 0x50FFFFFF = some (.character 255 255 255)
  ∧ decodeTableWord 32 0x60FF0000 = some (.create 255 0) ∧ decodeTableWord 32 0x700000FF = some (.putc 255)
  ∧ decodeTableWord 32 0x00000000 = none ∧ decodeTableWord 32 0x80000000 = none ∧ decodeTableWord 32 0x11000000 = none
  ∧ decodeTableWord 32 0x10000001 = none ∧ decodeTableWord 32 0x20010000 = none ∧ decodeTableWord 32 0x4000000E = none

/-- No bit of an encoding is dropped: every instruction comes back from its word and glyph operand. -/
def Obligations.DecodeOfEncodeIsTheInstruction : Prop :=
  ∀ i : Instr, decode (encodeWord i) (encodeGlyph i) = .ok i

/-- A legal word has one meaning, and it is the only word with that meaning; CREATE takes its glyph whole (R67). -/
def Obligations.LegalWordIsTheEncodingOfItsInstruction : Prop :=
  ∀ (w : Word) (g : Glyph) (i : Instr), decode w g = .ok i →
    encodeWord i = w ∧ ∀ slot glyph, i = .create slot glyph → glyph = g

/-- The decoder accepts a word exactly where a row of opcode_table.json matches it, and no word matches two rows (R81). -/
def Obligations.DecoderAcceptsExactlyTheTableRows : Prop :=
  opcodeTable.length = 20
  ∧ (∀ w g, (∃ i, decode w g = .ok i) ↔ ∃ row ∈ opcodeTable, MatchesRow w row)
  ∧ ∀ w, ∀ row ∈ opcodeTable, ∀ row' ∈ opcodeTable, MatchesRow w row → MatchesRow w row' → row = row'

/-- R75, R151: a word of R75's list completes with `ERR_ILLEGAL` in the step after acceptance, with no state change and no
transport byte. -/
def Obligations.IllegalWordCompletesWithErrIllegal : Prop :=
  ∀ s : State, reqReady s = true → s.pins.reset = false → s.pins.reqValid = true → IllegalWord s.pins.reqWord →
    (next s).pins.reset = false →
    ∃ t u, step s = .next t ∧ t = { advance s with cur := .req .errIllegal }
      ∧ step t = .next u ∧ u = { advance (advance s) with rspValid := true, rspCode := .errIllegal }
      ∧ trace 2 s = []

/-- R79: the assembler gives each line the word of R65 and refuses every operand above 255; R80: PUTS is one PUTC per byte,
in order. -/
def Obligations.AssemblerGivesTheSpecWords : Prop :=
  assemble .cls = some [(0x10000000, 0)] ∧ assemble .home = some [(0x20000000, 0)]
  ∧ [DisplayMode.displayOn, .displayOff, .cursorOn, .cursorOff, .blinkOn, .blinkOff, .scrollLeft, .scrollRight, .leftToRight,
      .rightToLeft, .autoscrollOn, .autoscrollOff, .backlightOn, .backlightOff].map (fun m => assemble (.display m))
    = (List.range 14).map (fun k => some [(0x40000000 + BitVec.ofNat 32 k, 0)])
  ∧ (∀ c r, assemble (.locate c r)
    = if c ≤ 255 ∧ r ≤ 255 then some [(BitVec.ofNat 32 (0x30000000 + 0x10000 * c + 0x100 * r), 0)] else none)
  ∧ (∀ c r v, assemble (.character c r v)
    = if c ≤ 255 ∧ r ≤ 255 ∧ v ≤ 255 then
        some [(BitVec.ofNat 32 (0x50000000 + 0x10000 * c + 0x100 * r + v), 0)] else none)
  ∧ (∀ v, assemble (.putc v) = if v ≤ 255 then some [(BitVec.ofNat 32 (0x70000000 + v), 0)] else none)
  ∧ (∀ text, assemble (.puts text)
    = if ∀ v ∈ text, v ≤ 255 then some (text.map fun v => (BitVec.ofNat 32 (0x70000000 + v), 0)) else none)
  ∧ (∀ slot bytes, slot ≤ 255 → bytes.length = 8 → (∀ b ∈ bytes, b ≤ 255) →
    ∃ g, assemble (.create slot bytes) = some [(BitVec.ofNat 32 (0x60000000 + 0x10000 * slot), g)]
      ∧ ∀ k, (h : k < bytes.length) → (glyphByte g k).toNat = bytes[k])
  ∧ (∀ slot bytes, 255 < slot ∨ bytes.length ≠ 8 ∨ (∃ b ∈ bytes, 255 < b) → assemble (.create slot bytes) = none)
  ∧ ∀ l ws, assemble l = some ws → ∀ x ∈ ws, ∃ i, decode x.1 x.2 = .ok i

/-! ### The step relation (10_state.md) -/

/-- A request on the port of an idle, ready block is run: the step is the instruction's meaning at the state past this step's
pins. -/
def Obligations.StepRunsTheDecodedRequest : Prop :=
  ∀ (s : State) (i : Instr), reqReady s = true → s.pins.reset = false → s.pins.reqValid = true →
    decode s.pins.reqWord s.pins.reqGlyph = .ok i → step s = exec i (advance s)

/-- The model's placing of a request (assumption log 9): the very next step runs the instruction the decoder reads. -/
def Obligations.PlacedRequestIsRunNext : Prop :=
  ∀ (s : State) (nbits w : Nat) (i : Instr), decodeTableWord nbits w = some i →
    step (s.withFetchWord nbits w)
      = exec i { s with fsm := .ready, seq := [], cur := .none, txp := false, rspValid := false, tick := s.tick + 1 }

/-- R167 as a whole: whatever the state and the inputs, the step answers a next state. -/
def Obligations.EveryStepAnswersNext : Prop :=
  ∀ s : State, ∃ t, step s = .next t

/-- R21, R96: unless `REQ_READY` is 1, a step does not depend on the request pins. -/
def Obligations.RequestPinsAreIgnoredUnlessReady : Prop :=
  ∀ (s : State) (p : Pins) (rest : List Pins) (valid : Bool) (word : Word) (glyph : Glyph), reqReady s = false →
    step { s with script := { p with reqValid := valid, reqWord := word, reqGlyph := glyph } :: rest }
      = step { s with script := p :: rest }

/-- R168, R169: reset comes before everything, leaves every piece of state at its reset value and samples the straps. -/
def Obligations.ResetTakesPrecedence : Prop :=
  ∀ s : State, s.pins.reset = true →
    ∃ t, step s = .next t ∧ t.fsm = .uninit ∧ t.seq = [] ∧ t.cur = .none ∧ t.txp = false
      ∧ t.fsImg = 0x28 ∧ t.dcImg = 0x08 ∧ t.emImg = 0x06 ∧ t.bl = false ∧ t.col = 0 ∧ t.row = 0
      ∧ t.geom = Geometry.ofCode s.pins.geomIn ∧ t.addr7 = s.pins.addr7In
      ∧ t.rspValid = false ∧ reqReady t = false ∧ txPort t = none

/-- R42, the values the spec gives; the straps of State.reset are the model's choice (assumption log 6). -/
def Obligations.ResetStateHoldsTheResetValues : Prop :=
  State.reset.fsm = .uninit ∧ State.reset.seq = [] ∧ State.reset.cur = .none ∧ State.reset.txp = false
  ∧ State.reset.fsImg = 0x28 ∧ State.reset.dcImg = 0x08 ∧ State.reset.emImg = 0x06 ∧ State.reset.bl = false
  ∧ State.reset.col = 0 ∧ State.reset.row = 0 ∧ State.reset.rspValid = false ∧ reqReady State.reset = false
  ∧ statusState State.reset = 0 ∧ statusBusy State.reset = false ∧ statusInitFail State.reset = false

/-- R170, R34: in UNINIT the block waits `T_PWR_SETTLE` and then starts the initialization sequence; that it does so at the
first step that finds the time reached is the model's choice (assumption log 4). -/
def Obligations.InitializationStartsAfterPowerSettle : Prop :=
  ∀ s : State, s.pins.reset = false → s.fsm = .uninit →
    ∃ t, step s = .next t
      ∧ (s.params.tPwrSettle ≤ s.timer + s.pins.elapsedUs →
          t = { advance s with fsm := .initializing, seq := initSeq s.params, cur := .init, timer := 0 })
      ∧ (s.timer + s.pins.elapsedUs < s.params.tPwrSettle →
          t = { advance s with timer := s.timer + s.pins.elapsedUs })

/-- R34: `STATE` changes in exactly these ways. -/
def Obligations.FsmTransitionsAreThoseOfTheSpec : Prop :=
  ∀ s t : State, Inv s → step s = .next t → s.fsm ≠ t.fsm →
    (s.pins.reset = true ∧ t.fsm = .uninit)
    ∨ (s.pins.reset = false ∧ s.fsm = .uninit ∧ t.fsm = .initializing
        ∧ s.params.tPwrSettle ≤ s.timer + s.pins.elapsedUs ∧ t.seq = initSeq s.params)
    ∨ (s.pins.reset = false ∧ s.fsm = .initializing ∧ t.fsm = .ready ∧ s.seq = [] ∧ s.cur = .init)
    ∨ (s.pins.reset = false ∧ s.fsm = .initializing ∧ t.fsm = .failed
        ∧ s.txp = true ∧ s.pins.txDone = true ∧ s.pins.txOk = false ∧ ∃ q ops, s.seq = .put q :: ops)

/-- R37, R38, R153: outside reset, `CUR` and the code held with it change in exactly these ways. -/
def Obligations.OwnerChangesAreThoseOfTheSpec : Prop :=
  ∀ s t : State, Inv s → step s = .next t → s.pins.reset = false → s.cur ≠ t.cur →
    (s.cur = .none ∧ s.fsm = .uninit ∧ t.cur = .init)
    ∨ (s.cur = .init ∧ t.cur = .none ∧ t.rspValid = false)
    ∨ (reqReady s = true ∧ s.pins.reqValid = true ∧ (t.cur = .req .ok ∨ (t.seq = [] ∧ ∃ c, t.cur = .req c ∧ c ≠ .errIo)))
    ∨ (s.seq = [] ∧ t.cur = .none ∧ t.rspValid = true ∧ s.cur = .req t.rspCode)
    ∨ (s.cur = .req .ok ∧ t.cur = .req .errIo ∧ t.seq = [] ∧ s.txp = true ∧ s.pins.txDone = true ∧ s.pins.txOk = false)

/-- R22: `RSP_VALID` is high for one step, with the held code, exactly after the step that answers a request. -/
def Obligations.ResponseIsAOneStepEventWithTheHeldCode : Prop :=
  ∀ s t : State, step s = .next t →
    (t.rspValid = true ↔
      s.pins.reset = false ∧ (s.fsm = .initializing ∨ s.fsm = .ready) ∧ s.seq = [] ∧ ∃ c, s.cur = .req c)
    ∧ (t.rspValid = true → s.cur = .req t.rspCode ∧ t.cur = .none)

/-- R43: no step depends on the code an earlier request completed with. That the port keeps the code between responses is the
model's choice (assumption log 7). -/
def Obligations.EarlierCodesHaveNoInfluence : Prop :=
  ∀ (s t : State) (c : Code), step s = .next t →
    step { s with rspCode := c }
      = .next { t with rspCode := if t.rspValid = true ∨ s.pins.reset = true then t.rspCode else c }

/-- R40, with the codes of R33: the status outputs in every state; and R21, R150: `REQ_READY`, and the codes of `RSP_CODE`. -/
def Obligations.StatusOutputsFollowTheState : Prop :=
  (∀ s : State,
    (s.fsm = .uninit ↔ (statusState s).toNat = 0) ∧ (s.fsm = .initializing ↔ (statusState s).toNat = 1)
    ∧ (s.fsm = .ready ↔ (statusState s).toNat = 2) ∧ (s.fsm = .failed ↔ (statusState s).toNat = 3)
    ∧ (statusBusy s = true ↔ s.seq ≠ [] ∨ s.cur ≠ .none)
    ∧ (statusInitFail s = true ↔ s.fsm = .failed)
    ∧ (reqReady s = true ↔ statusState s = 2 ∧ statusBusy s = false))
  ∧ [Code.ok, .errIllegal, .errAddr, .errIo].map (fun c => c.toBits.toNat) = [0, 1, 2, 3]

/-- R31, R7, R8: outside reset the straps hold. That no step writes the parameters either is the model's choice (assumption
log 5). -/
def Obligations.StrapsAndParametersAreConstant : Prop :=
  ∀ s t : State, step s = .next t →
    t.params = s.params ∧ (s.pins.reset = false → t.geom = s.geom ∧ t.addr7 = s.addr7)

/-- The data registers change only by reset or by a `SET` at the head of `SEQ`, and then as that update says (R36, R38). -/
def Obligations.RegistersChangeOnlyByResetOrSet : Prop :=
  ∀ s t : State, step s = .next t → s.pins.reset = false → registers t ≠ registers s →
    ∃ u ops, s.seq = .set u :: ops ∧ registers t = registers (applyUpdate u s)

/-! ### Micro-ops and the transport (40_nibble_framer.md, 20_memory.md, 60_exceptions.md) -/

/-- R87, R50: a `PUT` issues one write, to `ADDR7 << 1`, of its payload with the backlight bit as it stands now. That the issue
is a step of its own is the model's reading (assumption log 3). -/
def Obligations.PutIssuesOneWriteWithTheCurrentBacklight : Prop :=
  ∀ (s : State) (q : Byte) (ops : List MicroOp), s.pins.reset = false → (s.fsm = .initializing ∨ s.fsm = .ready) →
    s.seq = .put q :: ops → s.txp = false → q.getLsbD s.params.bitBl = false →
    ∃ t w, step s = .next t ∧ t = { advance s with txp := true } ∧ txPort t = some w
      ∧ w.addr.toNat = 2 * s.addr7.toNat
      ∧ ∀ k, w.data.getLsbD k = if k = s.params.bitBl.val then s.bl else q.getLsbD k

/-- R87: a write answered `ok` removes its `PUT` and nothing else; the timer of the next wait starts (assumption log 3, 4). -/
def Obligations.AnsweredWriteRemovesItsPut : Prop :=
  ∀ (s : State) (q : Byte) (ops : List MicroOp), s.pins.reset = false → (s.fsm = .initializing ∨ s.fsm = .ready) →
    s.seq = .put q :: ops → s.txp = true → s.pins.txDone = true → s.pins.txOk = true →
    step s = .next { advance s with seq := ops, txp := false, timer := 0 }

/-- R51: while the transport does not answer, the block makes no step until reset. -/
def Obligations.UnansweredWriteLeavesTheBlockStuck : Prop :=
  ∀ (s : State) (q : Byte) (ops : List MicroOp), s.pins.reset = false → (s.fsm = .initializing ∨ s.fsm = .ready) →
    s.seq = .put q :: ops → s.txp = true → s.pins.txDone = false →
    step s = .next (advance s)

/-- R153: a `fail` ends the request; the registers stay as the `SET`s before it left them, the block stays READY, and the next
step answers `ERR_IO`. -/
def Obligations.FailedWriteEndsTheRequestWithErrIo : Prop :=
  ∀ (s : State) (q : Byte) (ops : List MicroOp) (c : Code), s.pins.reset = false → s.fsm = .ready → s.cur = .req c →
    s.seq = .put q :: ops → s.txp = true → s.pins.txDone = true → s.pins.txOk = false →
    ∃ t, step s = .next t ∧ t = { advance s with seq := [], cur := .req .errIo, txp := false }
      ∧ (t.pins.reset = false → ∃ u, step t = .next u
          ∧ u = { advance t with cur := .none, rspValid := true, rspCode := .errIo } ∧ reqReady u = true)

/-- R155: a `fail` during initialization puts the block in FAILED with no response, and there it stays until reset, whatever
is asked of it. -/
def Obligations.InitializationFailureIsTerminalUntilReset : Prop :=
  (∀ (s : State) (q : Byte) (ops : List MicroOp), s.pins.reset = false → s.fsm = .initializing → s.cur = .init →
    s.seq = .put q :: ops → s.txp = true → s.pins.txDone = true → s.pins.txOk = false →
    ∃ t, step s = .next t ∧ t = { advance s with fsm := .failed, seq := [], cur := .none, txp := false }
      ∧ t.rspValid = false ∧ statusInitFail t = true)
  ∧ ∀ s : State, s.pins.reset = false → s.fsm = .failed → step s = .next (advance s) ∧ reqReady s = false

/-- R91: a `WAIT(t)` is removed no earlier than `t` µs after the previous micro-op completed. That the first step that finds
the time reached removes it is the model's choice (assumption log 4). -/
def Obligations.WaitEndsNoEarlierThanItsMinimum : Prop :=
  ∀ (s : State) (t : Nat) (ops : List MicroOp), s.pins.reset = false → (s.fsm = .initializing ∨ s.fsm = .ready) →
    s.seq = .wait t :: ops →
    ∃ u, step s = .next u
      ∧ (u.seq = ops ∧ t ≤ s.timer + s.pins.elapsedUs ∧ u = { advance s with seq := ops, timer := 0 }
        ∨ s.timer + s.pins.elapsedUs < t ∧ u = { advance s with timer := s.timer + s.pins.elapsedUs })

/-- R36: a `SET` executes in one step, applies its update and removes itself; the updates that are one assignment. -/
def Obligations.SetAppliesItsUpdateInOneStep : Prop :=
  ∀ (s : State) (u : Update) (ops : List MicroOp), s.pins.reset = false → (s.fsm = .initializing ∨ s.fsm = .ready) →
    s.seq = .set u :: ops →
    ∃ t, step s = .next t ∧ t.seq = ops ∧ t.fsm = s.fsm ∧ t.cur = s.cur ∧ t.txp = s.txp
      ∧ (∀ m, u = .dcOr m → registers t = registers { s with dcImg := s.dcImg ||| m })
      ∧ (∀ m, u = .dcClr m → registers t = registers { s with dcImg := s.dcImg &&& ~~~m })
      ∧ (∀ m, u = .emOr m → registers t = registers { s with emImg := s.emImg ||| m })
      ∧ (∀ m, u = .emClr m → registers t = registers { s with emImg := s.emImg &&& ~~~m })
      ∧ (u = .loadImgs → registers t = registers { s with fsImg := 0x28, dcImg := 0x08, emImg := 0x06 })
      ∧ (∀ b, u = .blSet b → registers t = registers { s with bl := b })
      ∧ (u = .curHome → registers t = registers { s with col := 0, row := 0 })
      ∧ (∀ c r, u = .curTo c r → registers t = registers { s with col := c, row := r })
      ∧ (u = .curAdv → registers t = registers (applyUpdate .curAdv s))
      ∧ (u = .curNl → registers t = registers (applyUpdate .curNl s))

/-- R70, R72: each bit of a payload is the signal at its position, for every legal choice of positions. -/
def Obligations.PayloadBitsAreTheSignals : Prop :=
  ∀ (p : Params) (n : BitVec 4) (rs : RegSel) (en bl : Bool), p.Distinct →
    (∀ k, k < 4 → (payload p n rs en bl).getLsbD (4 + k) = n.getLsbD k)
    ∧ (payload p n rs en bl).getLsbD p.bitRs = rs.level ∧ (payload p n rs en bl).getLsbD p.bitRw = false
    ∧ (payload p n rs en bl).getLsbD p.bitEn = en ∧ (payload p n rs en bl).getLsbD p.bitBl = bl

/-- R83, R84, R90: a framed byte is its two nibbles, high first, each with its enable pulse, and `BLWRITE` is one byte with
the backlight bit alone. -/
def Obligations.FrameSendsHighNibbleThenLowNibble : Prop :=
  (∀ (p : Params) (bl : Bool) (rs : RegSel) (n : BitVec 4),
    bytesOf p bl (nibble p (n ++ 0#4) rs) = pulseBytes p bl rs n)
  ∧ (∀ (p : Params) (bl : Bool) (rs : RegSel) (v : Byte), bytesOf p bl (frame p v rs) = wireBytes p bl rs v)
  ∧ ∀ (p : Params) (bl : Bool), bytesOf p bl blWrite = [signalBit p.bitBl bl]

/-- R94: the payload table of a nibble under the default positions. -/
def Obligations.DefaultPayloadTable : Prop :=
  ∀ (n : BitVec 4) (rs : RegSel) (bl : Bool),
    bytesOf Params.default bl (nibble Params.default (n ++ 0#4) rs)
      = (let P : Byte := BitVec.ofNat 8 (16 * n.toNat + match rs, bl with
          | .cmd, false => 0x00 | .cmd, true => 0x08 | .data, false => 0x01 | .data, true => 0x09)
        [P, P ||| 0x04, P])

/-- R86, R88, R59: in the list of every request and of initialization, the enable line rises only inside a whole pulse with its
three waits. -/
def Obligations.EnableRisesOnlyInsideWholePulses : Prop :=
  (∀ (i : Instr) (s t : State), s.params.Distinct → exec i s = .next t → Pulsed s.params t.seq)
  ∧ ∀ p : Params, p.Distinct → Pulsed p (initSeq p)

/-- R73, R74: the bytes of a request are those of framed bytes whose commands are all in R73's table (so an address command
is that of a cell of the panel, and never 0xFF), or one backlight write. -/
def Obligations.CommandBytesAreThoseOfTheTable : Prop :=
  ∀ (i : Instr) (s t : State), Inv s → exec i s = .next t →
    (∃ L : List (Byte × RegSel), (∀ x ∈ L, x.2 = .cmd → CommandByte s.geom x.1 ∧ x.1 ≠ 0xFF)
      ∧ bytesOf s.params s.bl t.seq = L.flatMap fun x => wireBytes s.params s.bl x.2 x.1)
    ∨ ((i = .backlightOn ∨ i = .backlightOff) ∧ ∃ b, bytesOf s.params s.bl t.seq = [signalBit s.params.bitBl b])

/-! ### Requests -/

/-- R38: accepting a legal request writes `SEQ` and `CUR` and nothing else, whichever request it is. -/
def Obligations.AcceptanceWritesTheSequencerOnly : Prop :=
  ∀ (i : Instr) (s : State), ∃ t, exec i s = .next t ∧ t = { s with seq := t.seq, cur := t.cur }
    ∧ (t.cur = .req .ok ∨ (t.cur = .req .errAddr ∧ t.seq = []))

/-- R107 to R122, R132, R133, R139, R145, and so the writes of R44: the updates of a request that runs are exactly these, in
order; a refused one has none. -/
def Obligations.RequestsWriteOnlyTheirRegisters : Prop :=
  ∀ (i : Instr) (s t : State), exec i s = .next t →
    updatesOf t.seq = if t.cur ≠ .req .ok then [] else
      match i with
      | .cls | .home => [.curHome]
      | .locate c r => [.curTo (c.truncate 6) (r.truncate 2)]
      | .displayOn => [.dcOr 0x04]
      | .displayOff => [.dcClr 0x04]
      | .cursorOn => [.dcOr 0x02]
      | .cursorOff => [.dcClr 0x02]
      | .blinkOn => [.dcOr 0x01]
      | .blinkOff => [.dcClr 0x01]
      | .leftToRight => [.emOr 0x02]
      | .rightToLeft => [.emClr 0x02]
      | .autoscrollOn => [.emOr 0x01]
      | .autoscrollOff => [.emClr 0x01]
      | .backlightOn => [.blSet true]
      | .backlightOff => [.blSet false]
      | .putc ch => [if ch = 0x0A then .curNl else .curAdv]
      | .scrollLeft | .scrollRight | .character _ _ _ | .create _ _ => []

/-- R107: CLS sends the clear command, then the home command where `CLS_HOME` says so, each with its long wait, and homes the
cursor after them. -/
def Obligations.ClsClearsAndHomes : Prop :=
  ∀ s : State, ∃ t, exec .cls s = .next t ∧ t = { s with seq := t.seq, cur := .req .ok }
    ∧ t.seq = frame s.params 0x01 .cmd ++ [.wait s.params.tLong]
      ++ (if s.params.clsHome then frame s.params 0x02 .cmd ++ [.wait s.params.tLong] else []) ++ [.set .curHome]
    ∧ bytesOf s.params s.bl t.seq
      = wireBytes s.params s.bl .cmd 0x01 ++ (if s.params.clsHome then wireBytes s.params s.bl .cmd 0x02 else [])
    ∧ applySets t.seq t = { t with col := 0, row := 0 }

/-- R108: HOME sends the home command with its long wait and homes the cursor after it. -/
def Obligations.HomeHomes : Prop :=
  ∀ s : State, ∃ t, exec .home s = .next t ∧ t = { s with seq := t.seq, cur := .req .ok }
    ∧ t.seq = frame s.params 0x02 .cmd ++ [.wait s.params.tLong] ++ [.set .curHome]
    ∧ bytesOf s.params s.bl t.seq = wireBytes s.params s.bl .cmd 0x02
    ∧ applySets t.seq t = { t with col := 0, row := 0 }

/-- R109 to R114, R28: the six kind (a) modes write their flag of `DC_IMG`, then re-emit the new image, and change nothing
else. -/
def Obligations.DisplayControlModesComplete : Prop :=
  ∀ (s : State) (i : Instr) (image : Byte),
    (i, image) ∈ [(Instr.displayOn, s.dcImg ||| 0x04), (.displayOff, s.dcImg &&& 0xFB), (.cursorOn, s.dcImg ||| 0x02),
      (.cursorOff, s.dcImg &&& 0xFD), (.blinkOn, s.dcImg ||| 0x01), (.blinkOff, s.dcImg &&& 0xFE)] →
    ∃ t, exec i s = .next t ∧ t = { s with seq := t.seq, cur := .req .ok }
      ∧ (∃ u, t.seq = .set u :: frame s.params image .cmd)
      ∧ bytesOf s.params s.bl t.seq = wireBytes s.params s.bl .cmd image
      ∧ applySets t.seq t = { t with dcImg := image }

/-- R117 to R120, R28: the four kind (b) modes write their flag of `EM_IMG`, then re-emit the new image, and change nothing
else. -/
def Obligations.EntryModesComplete : Prop :=
  ∀ (s : State) (i : Instr) (image : Byte),
    (i, image) ∈ [(Instr.leftToRight, s.emImg ||| 0x02), (.rightToLeft, s.emImg &&& 0xFD),
      (.autoscrollOn, s.emImg ||| 0x01), (.autoscrollOff, s.emImg &&& 0xFE)] →
    ∃ t, exec i s = .next t ∧ t = { s with seq := t.seq, cur := .req .ok }
      ∧ (∃ u, t.seq = .set u :: frame s.params image .cmd)
      ∧ bytesOf s.params s.bl t.seq = wireBytes s.params s.bl .cmd image
      ∧ applySets t.seq t = { t with emImg := image }

/-- R27: of the ten requests that set or clear a flag, each changes that one bit of its image and no other bit of either. -/
def Obligations.OneFlagChangesAlone : Prop :=
  (∀ (i : Instr) (k : Nat) (v : Bool), (i, k, v) ∈ [(Instr.displayOn, 2, true), (.displayOff, 2, false), (.cursorOn, 1, true),
      (.cursorOff, 1, false), (.blinkOn, 0, true), (.blinkOff, 0, false)] →
    ∀ s t : State, exec i s = .next t →
      (∀ j, (applySets t.seq t).dcImg.getLsbD j = if j = k then v else s.dcImg.getLsbD j)
      ∧ (applySets t.seq t).emImg = s.emImg)
  ∧ ∀ (i : Instr) (k : Nat) (v : Bool), (i, k, v) ∈ [(Instr.leftToRight, 1, true), (.rightToLeft, 1, false),
      (.autoscrollOn, 0, true), (.autoscrollOff, 0, false)] →
    ∀ s t : State, exec i s = .next t →
      (∀ j, (applySets t.seq t).emImg.getLsbD j = if j = k then v else s.emImg.getLsbD j)
      ∧ (applySets t.seq t).dcImg = s.dcImg

/-- R115, R116: SCROLL sends its shift command and changes no register. -/
def Obligations.ScrollModesComplete : Prop :=
  ∀ (s : State) (i : Instr) (command : Byte), (i, command) ∈ [(Instr.scrollLeft, 0x18), (.scrollRight, 0x1C)] →
    ∃ t, exec i s = .next t ∧ t = { s with seq := t.seq, cur := .req .ok }
      ∧ bytesOf s.params s.bl t.seq = wireBytes s.params s.bl .cmd command
      ∧ applySets t.seq t = t

/-- R121, R122: the backlight modes write `BL` and send one byte that carries the new level alone. -/
def Obligations.BacklightModesComplete : Prop :=
  ∀ (s : State) (i : Instr) (level : Bool), (i, level) ∈ [(Instr.backlightOn, true), (.backlightOff, false)] →
    ∃ t, exec i s = .next t ∧ t = { s with seq := t.seq, cur := .req .ok }
      ∧ bytesOf s.params s.bl t.seq = [if level then 1#8 <<< s.params.bitBl.val else 0]
      ∧ applySets t.seq t = { t with bl := level }

/-- R132: LOCATE to a position of the panel moves the cursor there and sends nothing; to any other it is `ERR_ADDR`, with no
state change. -/
def Obligations.LocateMovesTheCursorOrIsErrAddr : Prop :=
  ∀ (s : State) (c r : Byte),
    (c.toNat < columns s.geom ∧ r.toNat < rows s.geom →
      ∃ t, exec (.locate c r) s = .next t ∧ t = { s with seq := t.seq, cur := .req .ok }
        ∧ bytesOf s.params s.bl t.seq = []
        ∧ (applySets t.seq t).col.toNat = c.toNat ∧ (applySets t.seq t).row.toNat = r.toNat
        ∧ applySets t.seq t = { t with col := (applySets t.seq t).col, row := (applySets t.seq t).row })
    ∧ (¬ (c.toNat < columns s.geom ∧ r.toNat < rows s.geom) →
      exec (.locate c r) s = .next { s with seq := [], cur := .req .errAddr })

/-- R133: CHARACTER at a position of the panel sends its address command, then the value as data, and changes no register; at
any other it is `ERR_ADDR`, with no state change and no byte. -/
def Obligations.CharacterWritesAtItsPositionOrIsErrAddr : Prop :=
  ∀ (s : State) (c r v : Byte),
    (c.toNat < columns s.geom ∧ r.toNat < rows s.geom →
      ∃ t a, exec (.character c r v) s = .next t ∧ t = { s with seq := t.seq, cur := .req .ok }
        ∧ a.toNat = [0x80, 0xC0, 0x94, 0xD4].getD r.toNat 0 + c.toNat
        ∧ bytesOf s.params s.bl t.seq = wireBytes s.params s.bl .cmd a ++ wireBytes s.params s.bl .data v
        ∧ applySets t.seq t = t)
    ∧ (¬ (c.toNat < columns s.geom ∧ r.toNat < rows s.geom) →
      exec (.character c r v) s = .next { s with seq := [], cur := .req .errAddr })

/-- R145 to R147: CREATE with a slot of 0..7 sends the CGRAM command and the eight glyph bytes whole, in array order; with a
slot above 7 it completes `OK` and sends nothing. No register changes either way. -/
def Obligations.CreateUploadsOrIsANoOp : Prop :=
  ∀ (s : State) (slot : Byte) (g : Glyph),
    ∃ t, exec (.create slot g) s = .next t ∧ t = { s with seq := t.seq, cur := .req .ok } ∧ applySets t.seq t = t
      ∧ (slot.toNat ≤ 7 → bytesOf s.params s.bl t.seq
          = wireBytes s.params s.bl .cmd (BitVec.ofNat 8 (0x40 + 8 * slot.toNat))
            ++ (List.range 8).flatMap fun k => wireBytes s.params s.bl .data (g.extractLsb' (8 * k) 8))
      ∧ (7 < slot.toNat → t.seq = [])

/-- R139, R140, R142, R143: PUTC of any character but the newline sends the address command of the cursor's cell and the
character, and after both frames advances the cursor, which stays on the panel. -/
def Obligations.PutcWritesAtTheCursorAndAdvances : Prop :=
  ∀ (s : State) (ch : Byte), ch ≠ 0x0A → CursorInRange s →
    ∃ t a, exec (.putc ch) s = .next t ∧ t = { s with seq := t.seq, cur := .req .ok }
      ∧ a.toNat = [0x80, 0xC0, 0x94, 0xD4].getD s.row.toNat 0 + s.col.toNat
      ∧ t.seq = frame s.params a .cmd ++ frame s.params ch .data ++ [.set .curAdv]
      ∧ bytesOf s.params s.bl t.seq = wireBytes s.params s.bl .cmd a ++ wireBytes s.params s.bl .data ch
      ∧ applySets t.seq t = { t with col := (applySets t.seq t).col, row := (applySets t.seq t).row }
      ∧ CursorInRange (applySets t.seq t)
      ∧ (applySets t.seq t).row.toNat * columns s.geom + (applySets t.seq t).col.toNat
        = (s.row.toNat * columns s.geom + s.col.toNat + 1) % (rows s.geom * columns s.geom)

/-- R139, R141: PUTC of the newline sends nothing and moves the cursor to column 0 of the next row, wrapping at `rows()`. -/
def Obligations.PutcNewlineMovesToTheNextRow : Prop :=
  ∀ s : State, s.row.toNat < rows s.geom →
    ∃ t, exec (.putc 0x0A) s = .next t ∧ t = { s with seq := t.seq, cur := .req .ok }
      ∧ bytesOf s.params s.bl t.seq = []
      ∧ applySets t.seq t = { t with col := 0, row := (applySets t.seq t).row }
      ∧ (applySets t.seq t).row.toNat = (s.row.toNat + 1) % rows s.geom

/-- R140, R142: `n` advances go `n` cells on through the rows and wrap at the end of the screen; so a screenful of characters
comes back to where it began. -/
def Obligations.AdvancesWalkTheScreenAndWrap : Prop :=
  ∀ (s : State) (n : Nat), CursorInRange s →
    CursorInRange (applySets (List.replicate n (.set .curAdv)) s)
    ∧ (applySets (List.replicate n (.set .curAdv)) s).row.toNat * columns s.geom
        + (applySets (List.replicate n (.set .curAdv)) s).col.toNat
      = (s.row.toNat * columns s.geom + s.col.toNat + n) % (rows s.geom * columns s.geom)

/-- R181: the transport bytes and the least time of every request under the default waits, when it is not refused. -/
def Obligations.RequestCostsAreThoseOfTheTable : Prop :=
  ∀ (i : Instr) (s t : State), s.params = { Params.default with clsHome := s.params.clsHome } → exec i s = .next t →
    t.cur = .req .ok →
    ((bytesOf s.params s.bl t.seq).length, waitsOf t.seq)
      = match i with
        | .cls => if s.params.clsHome then (12, 4168) else (6, 2084)
        | .home => (6, 2084)
        | .locate _ _ => (0, 0)
        | .displayOn | .displayOff | .cursorOn | .cursorOff | .blinkOn | .blinkOff | .scrollLeft | .scrollRight
        | .leftToRight | .rightToLeft | .autoscrollOn | .autoscrollOff => (6, 84)
        | .backlightOn | .backlightOff => (1, 0)
        | .character _ _ _ => (12, 168)
        | .create slot _ => if slot.toNat ≤ 7 then (54, 756) else (0, 0)
        | .putc ch => if ch = 0x0A then (0, 0) else (12, 168)

/-! ### The mapper (42_addressing.md) -/

/-- R126, R31, R32: the four geometries by strap code, and the outputs `COLS` and `ROWS`. -/
def Obligations.GeometriesHaveTheirColumnsAndRows : Prop :=
  [0, 1, 2, 3].map (fun c => (columns (Geometry.ofCode c), rows (Geometry.ofCode c))) = [(16, 2), (20, 2), (20, 4), (40, 2)]
  ∧ ∀ s : State, (colsOut s).toNat = columns s.geom ∧ (rowsOut s).toNat = rows s.geom

/-- R127, R128, R129: the mapper on every input, modulo 256, with the sentinel 0xFF of a 20×4 row of 4 or more. -/
def Obligations.AddressFollowsTheFormulaOnEveryInput : Prop :=
  ∀ c r : Byte,
    (∀ g, g ≠ Geometry.g20x4 → address g c r = (BitVec.ofNat 8 ((0x80 + r.toNat * 0x40 + c.toNat) % 256), true))
    ∧ (r.toNat < 4 →
        address .g20x4 c r = (BitVec.ofNat 8 (([0x80, 0xC0, 0x94, 0xD4].getD r.toNat 0 + c.toNat) % 256), true))
    ∧ (4 ≤ r.toNat → address .g20x4 c r = (0xFF, false))

/-- R130: in range, the address is the row base plus the column, with bit 7 set and at most 0xE7, and it is valid. -/
def Obligations.InRangeAddressesAreBasePlusColumn : Prop :=
  ∀ (g : Geometry) (c r : Byte), inrange g c r = true →
    (address g c r).2 = true ∧ (address g c r).1.toNat = [0x80, 0xC0, 0x94, 0xD4].getD r.toNat 0 + c.toNat
    ∧ 0x80 ≤ (address g c r).1.toNat ∧ (address g c r).1.toNat ≤ 0xE7

/-- Two cells of a panel never share a DDRAM address. -/
def Obligations.DistinctCellsHaveDistinctAddresses : Prop :=
  ∀ (g : Geometry) (c r c' r' : Byte), inrange g c r = true → inrange g c' r' = true →
    (address g c r).1 = (address g c' r').1 → c = c' ∧ r = r'

/-! ### Initialization (41_controller.md) -/

/-- R99 to R106, R124: the initialization sequence, step by step with each wait at its place, for every choice of the parameters;
its 61 bytes under the default positions, its least time, and the registers it leaves, whatever they held before. -/
def Obligations.InitializationSequenceSendsItsBytes : Prop :=
  (∀ p : Params, initSeq p = List.flatten
    [ [.set .loadImgs, .set (.blSet false)],
      nibble p 0x30 .cmd, [.wait p.tInit1], nibble p 0x30 .cmd, [.wait p.tInit2], nibble p 0x30 .cmd, [.wait p.tInit3],
      nibble p 0x20 .cmd,
      frame p 0x28 .cmd,
      frame p 0x08 .cmd, [.set (.dcOr 0x04)], frame p 0x0C .cmd, [.set (.dcClr 0x02)], frame p 0x0C .cmd,
      [.set (.dcClr 0x01)], frame p 0x0C .cmd,
      frame p 0x01 .cmd, [.wait p.tLong],
      frame p 0x06 .cmd,
      frame p 0x02 .cmd, [.wait p.tLong], [.set .curHome],
      [.set (.blSet true)], [.put 0x00] ])
  ∧ (∀ bl, bytesOf Params.default bl (initSeq Params.default)
    = [0x30, 0x34, 0x30, 0x30, 0x34, 0x30, 0x30, 0x34, 0x30, 0x20, 0x24, 0x20]
      ++ [0x20, 0x24, 0x20, 0x80, 0x84, 0x80] ++ [0x00, 0x04, 0x00, 0x80, 0x84, 0x80]
      ++ [0x00, 0x04, 0x00, 0xC0, 0xC4, 0xC0] ++ [0x00, 0x04, 0x00, 0xC0, 0xC4, 0xC0]
      ++ [0x00, 0x04, 0x00, 0xC0, 0xC4, 0xC0] ++ [0x00, 0x04, 0x00, 0x10, 0x14, 0x10]
      ++ [0x00, 0x04, 0x00, 0x60, 0x64, 0x60] ++ [0x00, 0x04, 0x00, 0x20, 0x24, 0x20] ++ [0x08])
  ∧ (∀ bl, (bytesOf Params.default bl (initSeq Params.default)).length = 61)
  ∧ waitsOf (initSeq Params.default) = 13990
  ∧ ∀ s : State, registers (applySets (initSeq s.params) s) = (0x28, 0x0C, 0x06, true, 0, 0, s.geom, s.addr7)

/-! ### The invariant and whole runs -/

/-- The invariant holds at reset (under the straps of assumption log 6 and the default parameters of log 5). -/
def Obligations.InvariantHoldsAtReset : Prop := Inv State.reset

/-- R24 to R26, R30, R33, R37, R39, R142: every step keeps the hardwired bits, the cursor in range, and the agreement of `SEQ`,
`CUR`, `TXP` and `STATE`, whatever the environment does. -/
def Obligations.StepKeepsInvariant : Prop :=
  ∀ s t : State, Inv s → step s = .next t → Inv t

/-- R58, R82, R36, R91, R92, for every behaviour of the environment: where a request is still held as `OK`, or initialization
still owns `SEQ`, when the list is empty, the writes issued since are exactly the bytes of its list, in order, to the strapped
address; the registers are those its updates leave; and the time passed is at least the sum of its waits. R34, R38: the next
step without reset ends initialization in READY with no response, or answers the request with `OK`. -/
def Obligations.RequestRunsExactlyItsExpansion : Prop :=
  ∀ (s : State) (k : Nat), Inv s → s.txp = false → (s.cur = .req .ok ∨ s.cur = .init) →
    (∀ j, j ≤ k → (after j s).cur = s.cur) → (after k s).seq = [] →
    trace k s = (bytesOf s.params s.bl s.seq).map (fun b => ⟨addr8 s.addr7, b⟩)
    ∧ registers (after k s) = registers (applySets s.seq s)
    ∧ waitsOf s.seq ≤ s.timer + elapsed k s
    ∧ ((after k s).pins.reset = false → s.cur = .init →
        step (after k s) = .next { advance (after k s) with fsm := .ready, cur := .none })
    ∧ ((after k s).pins.reset = false → s.cur = .req .ok →
        step (after k s) = .next { advance (after k s) with cur := .none, rspValid := true, rspCode := .ok })

/-- R153, R155, R85, for every behaviour of the environment: where a request turns to `ERR_IO`, or initialization to FAILED, it was
cut at one `PUT`; the writes issued are those of its list up to and with that `PUT`, and the registers are those of the updates
before it. -/
def Obligations.FailedRequestIsCutAtOnePut : Prop :=
  ∀ (s : State) (k : Nat), Inv s → s.txp = false → (s.cur = .req .ok ∨ s.cur = .init) →
    (∀ j, j ≤ k → (after j s).cur = s.cur) → ((after (k + 1) s).cur = .req .errIo ∨ (after (k + 1) s).fsm = .failed) →
    ∃ before q rest, s.seq = before ++ .put q :: rest
      ∧ trace (k + 1) s = (bytesOf s.params s.bl (before ++ [.put q])).map (fun b => ⟨addr8 s.addr7, b⟩)
      ∧ registers (after (k + 1) s) = registers (applySets before s)
      ∧ (after (k + 1) s).seq = []

/-- R22, R38: in an environment that makes nothing wait, a request accepted by the ready block runs through its list in that
list's own number of steps, and the step after it answers with the held code and leaves the block idle. The number of steps is
the model's (assumption log 3, 4). -/
def Obligations.PromptRequestIsAnswered : Prop :=
  ∀ (i : Instr) (s t : State), s.fsm = .ready → s.txp = false → exec i s = .next t →
    stepsOf t.seq + 1 ≤ t.script.length → (∀ p ∈ t.script.take (stepsOf t.seq + 1), Prompt t.params p) →
    registers (after (stepsOf t.seq + 1) t) = registers (applySets t.seq t)
    ∧ trace (stepsOf t.seq + 1) t = (bytesOf t.params t.bl t.seq).map (fun b => ⟨addr8 t.addr7, b⟩)
    ∧ (after (stepsOf t.seq + 1) t).rspValid = true
    ∧ t.cur = .req (after (stepsOf t.seq + 1) t).rspCode
    ∧ responses (stepsOf t.seq + 1) t = [(after (stepsOf t.seq + 1) t).rspCode]
    ∧ reqReady (after (stepsOf t.seq + 1) t) = true

/-- R34, R95, R124, R171: in an environment that makes nothing wait, the block goes from UNINIT through the initialization
sequence to READY by itself, sends that sequence's bytes and no response, and ends with the registers of R171. The number
of steps is the model's (assumption log 3, 4). -/
def Obligations.PromptInitializationReachesReady : Prop :=
  ∀ s : State, Inv s → s.fsm = .uninit →
    stepsOf (initSeq s.params) + 2 ≤ s.script.length →
    (∀ p ∈ s.script.take (stepsOf (initSeq s.params) + 2), Prompt s.params p) →
    reqReady (after (stepsOf (initSeq s.params) + 2) s) = true
    ∧ registers (after (stepsOf (initSeq s.params) + 2) s) = (0x28, 0x0C, 0x06, true, 0, 0, s.geom, s.addr7)
    ∧ trace (stepsOf (initSeq s.params) + 2) s
      = (bytesOf s.params false (initSeq s.params)).map (fun b => ⟨addr8 s.addr7, b⟩)
    ∧ responses (stepsOf (initSeq s.params) + 2) s = []
end

