-- ==== Sys2Proof/Laws/Decode.lean ====
section
/-!
SUPPORT. The fields of a packed word, and a word from its fields; decode and encode are reasoned about through these.
-/

namespace Sys2Proof

theorem packWord_getLsbD (op : BitVec 4) (a b c : Byte) (i : Nat) :
    (packWord op a b c).getLsbD i = if i < 8 then c.getLsbD i else if i < 16 then b.getLsbD (i - 8)
      else if i < 24 then a.getLsbD (i - 16) else if i < 28 then false else op.getLsbD (i - 28) := by
  have h : (packWord op a b c).getLsbD i = (op ++ 0#4 ++ a ++ b ++ c).getLsbD i := rfl
  rw [h]
  simp only [BitVec.getLsbD_append, Nat.sub_sub]
  split_ifs <;> first | rfl | (exfalso; omega) | simp

@[simp] theorem opField_packWord (op : BitVec 4) (a b c : Byte) : opField (packWord op a b c) = op := by
  refine BitVec.eq_of_getLsbD_eq fun i hi => ?_
  simp only [opField, BitVec.getLsbD_extractLsb', packWord_getLsbD]
  simp [hi, show ¬ 28 + i < 8 by omega, show ¬ 28 + i < 16 by omega, show ¬ 28 + i < 24 by omega]

@[simp] theorem rsvField_packWord (op : BitVec 4) (a b c : Byte) : rsvField (packWord op a b c) = 0 := by
  refine BitVec.eq_of_getLsbD_eq fun i hi => ?_
  simp only [rsvField, BitVec.getLsbD_extractLsb', packWord_getLsbD]
  simp [hi, show ¬ 24 + i < 8 by omega, show ¬ 24 + i < 16 by omega, show 24 + i < 28 by omega]

@[simp] theorem aField_packWord (op : BitVec 4) (a b c : Byte) : aField (packWord op a b c) = a := by
  refine BitVec.eq_of_getLsbD_eq fun i hi => ?_
  simp only [aField, BitVec.getLsbD_extractLsb', packWord_getLsbD]
  simp [hi, show ¬ 16 + i < 8 by omega, show 16 + i < 24 by omega]

@[simp] theorem bField_packWord (op : BitVec 4) (a b c : Byte) : bField (packWord op a b c) = b := by
  refine BitVec.eq_of_getLsbD_eq fun i hi => ?_
  simp only [bField, BitVec.getLsbD_extractLsb', packWord_getLsbD]
  simp [hi, show 8 + i < 16 by omega]

@[simp] theorem cField_packWord (op : BitVec 4) (a b c : Byte) : cField (packWord op a b c) = c := by
  refine BitVec.eq_of_getLsbD_eq fun i hi => ?_
  simp only [cField, BitVec.getLsbD_extractLsb', packWord_getLsbD]
  simp [hi]

/-- A word with `RSV = 0` is the pack of its fields (30_encoding.md R63). -/
theorem packWord_fields (w : Word) (h : rsvField w = 0) :
    packWord (opField w) (aField w) (bField w) (cField w) = w := by
  refine BitVec.eq_of_getLsbD_eq fun i hi => ?_
  rw [packWord_getLsbD]
  simp only [opField, aField, bField, cField, BitVec.getLsbD_extractLsb']
  by_cases h1 : i < 8
  · simp [h1]
  by_cases h2 : i < 16
  · simp [h1, h2, show i - 8 < 8 by omega, show 8 + (i - 8) = i by omega]
  by_cases h3 : i < 24
  · simp [h1, h2, h3, show i - 16 < 8 by omega, show 16 + (i - 16) = i by omega]
  by_cases h4 : i < 28
  · have hr := congrArg (fun v => v.getLsbD (i - 24)) h
    simp [rsvField, show i - 24 < 4 by omega, show 24 + (i - 24) = i by omega] at hr
    simp [h1, h2, h3, h4, hr]
  · simp [h1, h2, h3, h4, show i - 28 < 4 by omega, show 28 + (i - 28) = i by omega]

end Sys2Proof
end

