-- ==== Sys2Proof/Laws/State.lean ====
section
/-!
SUPPORT. One lemma per field of State and shared update, all true by rfl, so that no proof unfolds a record update.
-/

namespace Sys2Proof.Machine

@[simp] theorem advance_fsm (s : State) : (advance s).fsm = s.fsm := rfl
@[simp] theorem advance_seq (s : State) : (advance s).seq = s.seq := rfl
@[simp] theorem advance_cur (s : State) : (advance s).cur = s.cur := rfl
@[simp] theorem advance_txp (s : State) : (advance s).txp = s.txp := rfl
@[simp] theorem advance_fsImg (s : State) : (advance s).fsImg = s.fsImg := rfl
@[simp] theorem advance_dcImg (s : State) : (advance s).dcImg = s.dcImg := rfl
@[simp] theorem advance_emImg (s : State) : (advance s).emImg = s.emImg := rfl
@[simp] theorem advance_bl (s : State) : (advance s).bl = s.bl := rfl
@[simp] theorem advance_col (s : State) : (advance s).col = s.col := rfl
@[simp] theorem advance_row (s : State) : (advance s).row = s.row := rfl
@[simp] theorem advance_geom (s : State) : (advance s).geom = s.geom := rfl
@[simp] theorem advance_addr7 (s : State) : (advance s).addr7 = s.addr7 := rfl
@[simp] theorem advance_rspValid (s : State) : (advance s).rspValid = false := rfl
@[simp] theorem advance_rspCode (s : State) : (advance s).rspCode = s.rspCode := rfl
@[simp] theorem advance_timer (s : State) : (advance s).timer = s.timer := rfl
@[simp] theorem advance_params (s : State) : (advance s).params = s.params := rfl
@[simp] theorem advance_script (s : State) : (advance s).script = s.script.tail := rfl
@[simp] theorem advance_tick (s : State) : (advance s).tick = s.tick + 1 := rfl

@[simp] theorem loadSeq_fsm (ops : List MicroOp) (s : State) : (loadSeq ops s).fsm = s.fsm := rfl
@[simp] theorem loadSeq_seq (ops : List MicroOp) (s : State) : (loadSeq ops s).seq = ops := rfl
@[simp] theorem loadSeq_cur (ops : List MicroOp) (s : State) : (loadSeq ops s).cur = .req .ok := rfl
@[simp] theorem loadSeq_txp (ops : List MicroOp) (s : State) : (loadSeq ops s).txp = s.txp := rfl
@[simp] theorem loadSeq_fsImg (ops : List MicroOp) (s : State) : (loadSeq ops s).fsImg = s.fsImg := rfl
@[simp] theorem loadSeq_dcImg (ops : List MicroOp) (s : State) : (loadSeq ops s).dcImg = s.dcImg := rfl
@[simp] theorem loadSeq_emImg (ops : List MicroOp) (s : State) : (loadSeq ops s).emImg = s.emImg := rfl
@[simp] theorem loadSeq_bl (ops : List MicroOp) (s : State) : (loadSeq ops s).bl = s.bl := rfl
@[simp] theorem loadSeq_col (ops : List MicroOp) (s : State) : (loadSeq ops s).col = s.col := rfl
@[simp] theorem loadSeq_row (ops : List MicroOp) (s : State) : (loadSeq ops s).row = s.row := rfl
@[simp] theorem loadSeq_geom (ops : List MicroOp) (s : State) : (loadSeq ops s).geom = s.geom := rfl
@[simp] theorem loadSeq_addr7 (ops : List MicroOp) (s : State) : (loadSeq ops s).addr7 = s.addr7 := rfl
@[simp] theorem loadSeq_rspValid (ops : List MicroOp) (s : State) : (loadSeq ops s).rspValid = s.rspValid := rfl
@[simp] theorem loadSeq_rspCode (ops : List MicroOp) (s : State) : (loadSeq ops s).rspCode = s.rspCode := rfl
@[simp] theorem loadSeq_timer (ops : List MicroOp) (s : State) : (loadSeq ops s).timer = s.timer := rfl
@[simp] theorem loadSeq_params (ops : List MicroOp) (s : State) : (loadSeq ops s).params = s.params := rfl
@[simp] theorem loadSeq_script (ops : List MicroOp) (s : State) : (loadSeq ops s).script = s.script := rfl
@[simp] theorem loadSeq_tick (ops : List MicroOp) (s : State) : (loadSeq ops s).tick = s.tick := rfl

@[simp] theorem raiseError_fsm (code : Code) (s : State) : (raiseError code s).fsm = s.fsm := rfl
@[simp] theorem raiseError_seq (code : Code) (s : State) : (raiseError code s).seq = [] := rfl
@[simp] theorem raiseError_cur (code : Code) (s : State) : (raiseError code s).cur = .req code := rfl
@[simp] theorem raiseError_txp (code : Code) (s : State) : (raiseError code s).txp = s.txp := rfl
@[simp] theorem raiseError_fsImg (code : Code) (s : State) : (raiseError code s).fsImg = s.fsImg := rfl
@[simp] theorem raiseError_dcImg (code : Code) (s : State) : (raiseError code s).dcImg = s.dcImg := rfl
@[simp] theorem raiseError_emImg (code : Code) (s : State) : (raiseError code s).emImg = s.emImg := rfl
@[simp] theorem raiseError_bl (code : Code) (s : State) : (raiseError code s).bl = s.bl := rfl
@[simp] theorem raiseError_col (code : Code) (s : State) : (raiseError code s).col = s.col := rfl
@[simp] theorem raiseError_row (code : Code) (s : State) : (raiseError code s).row = s.row := rfl
@[simp] theorem raiseError_geom (code : Code) (s : State) : (raiseError code s).geom = s.geom := rfl
@[simp] theorem raiseError_addr7 (code : Code) (s : State) : (raiseError code s).addr7 = s.addr7 := rfl
@[simp] theorem raiseError_rspValid (code : Code) (s : State) : (raiseError code s).rspValid = s.rspValid := rfl
@[simp] theorem raiseError_rspCode (code : Code) (s : State) : (raiseError code s).rspCode = s.rspCode := rfl
@[simp] theorem raiseError_timer (code : Code) (s : State) : (raiseError code s).timer = s.timer := rfl
@[simp] theorem raiseError_params (code : Code) (s : State) : (raiseError code s).params = s.params := rfl
@[simp] theorem raiseError_script (code : Code) (s : State) : (raiseError code s).script = s.script := rfl
@[simp] theorem raiseError_tick (code : Code) (s : State) : (raiseError code s).tick = s.tick := rfl

@[simp] theorem respond_fsm (code : Code) (s : State) : (respond code s).fsm = s.fsm := rfl
@[simp] theorem respond_seq (code : Code) (s : State) : (respond code s).seq = s.seq := rfl
@[simp] theorem respond_cur (code : Code) (s : State) : (respond code s).cur = .none := rfl
@[simp] theorem respond_txp (code : Code) (s : State) : (respond code s).txp = s.txp := rfl
@[simp] theorem respond_fsImg (code : Code) (s : State) : (respond code s).fsImg = s.fsImg := rfl
@[simp] theorem respond_dcImg (code : Code) (s : State) : (respond code s).dcImg = s.dcImg := rfl
@[simp] theorem respond_emImg (code : Code) (s : State) : (respond code s).emImg = s.emImg := rfl
@[simp] theorem respond_bl (code : Code) (s : State) : (respond code s).bl = s.bl := rfl
@[simp] theorem respond_col (code : Code) (s : State) : (respond code s).col = s.col := rfl
@[simp] theorem respond_row (code : Code) (s : State) : (respond code s).row = s.row := rfl
@[simp] theorem respond_geom (code : Code) (s : State) : (respond code s).geom = s.geom := rfl
@[simp] theorem respond_addr7 (code : Code) (s : State) : (respond code s).addr7 = s.addr7 := rfl
@[simp] theorem respond_rspValid (code : Code) (s : State) : (respond code s).rspValid = true := rfl
@[simp] theorem respond_rspCode (code : Code) (s : State) : (respond code s).rspCode = code := rfl
@[simp] theorem respond_timer (code : Code) (s : State) : (respond code s).timer = s.timer := rfl
@[simp] theorem respond_params (code : Code) (s : State) : (respond code s).params = s.params := rfl
@[simp] theorem respond_script (code : Code) (s : State) : (respond code s).script = s.script := rfl
@[simp] theorem respond_tick (code : Code) (s : State) : (respond code s).tick = s.tick := rfl

@[simp] theorem popSeq_fsm (rest : List MicroOp) (s : State) : (popSeq rest s).fsm = s.fsm := rfl
@[simp] theorem popSeq_seq (rest : List MicroOp) (s : State) : (popSeq rest s).seq = rest := rfl
@[simp] theorem popSeq_cur (rest : List MicroOp) (s : State) : (popSeq rest s).cur = s.cur := rfl
@[simp] theorem popSeq_txp (rest : List MicroOp) (s : State) : (popSeq rest s).txp = s.txp := rfl
@[simp] theorem popSeq_fsImg (rest : List MicroOp) (s : State) : (popSeq rest s).fsImg = s.fsImg := rfl
@[simp] theorem popSeq_dcImg (rest : List MicroOp) (s : State) : (popSeq rest s).dcImg = s.dcImg := rfl
@[simp] theorem popSeq_emImg (rest : List MicroOp) (s : State) : (popSeq rest s).emImg = s.emImg := rfl
@[simp] theorem popSeq_bl (rest : List MicroOp) (s : State) : (popSeq rest s).bl = s.bl := rfl
@[simp] theorem popSeq_col (rest : List MicroOp) (s : State) : (popSeq rest s).col = s.col := rfl
@[simp] theorem popSeq_row (rest : List MicroOp) (s : State) : (popSeq rest s).row = s.row := rfl
@[simp] theorem popSeq_geom (rest : List MicroOp) (s : State) : (popSeq rest s).geom = s.geom := rfl
@[simp] theorem popSeq_addr7 (rest : List MicroOp) (s : State) : (popSeq rest s).addr7 = s.addr7 := rfl
@[simp] theorem popSeq_rspValid (rest : List MicroOp) (s : State) : (popSeq rest s).rspValid = s.rspValid := rfl
@[simp] theorem popSeq_rspCode (rest : List MicroOp) (s : State) : (popSeq rest s).rspCode = s.rspCode := rfl
@[simp] theorem popSeq_timer (rest : List MicroOp) (s : State) : (popSeq rest s).timer = 0 := rfl
@[simp] theorem popSeq_params (rest : List MicroOp) (s : State) : (popSeq rest s).params = s.params := rfl
@[simp] theorem popSeq_script (rest : List MicroOp) (s : State) : (popSeq rest s).script = s.script := rfl
@[simp] theorem popSeq_tick (rest : List MicroOp) (s : State) : (popSeq rest s).tick = s.tick := rfl

@[simp] theorem finishInit_fsm (s : State) : (finishInit s).fsm = .ready := rfl
@[simp] theorem finishInit_seq (s : State) : (finishInit s).seq = s.seq := rfl
@[simp] theorem finishInit_cur (s : State) : (finishInit s).cur = .none := rfl
@[simp] theorem finishInit_txp (s : State) : (finishInit s).txp = s.txp := rfl
@[simp] theorem finishInit_fsImg (s : State) : (finishInit s).fsImg = s.fsImg := rfl
@[simp] theorem finishInit_dcImg (s : State) : (finishInit s).dcImg = s.dcImg := rfl
@[simp] theorem finishInit_emImg (s : State) : (finishInit s).emImg = s.emImg := rfl
@[simp] theorem finishInit_bl (s : State) : (finishInit s).bl = s.bl := rfl
@[simp] theorem finishInit_col (s : State) : (finishInit s).col = s.col := rfl
@[simp] theorem finishInit_row (s : State) : (finishInit s).row = s.row := rfl
@[simp] theorem finishInit_geom (s : State) : (finishInit s).geom = s.geom := rfl
@[simp] theorem finishInit_addr7 (s : State) : (finishInit s).addr7 = s.addr7 := rfl
@[simp] theorem finishInit_rspValid (s : State) : (finishInit s).rspValid = s.rspValid := rfl
@[simp] theorem finishInit_rspCode (s : State) : (finishInit s).rspCode = s.rspCode := rfl
@[simp] theorem finishInit_timer (s : State) : (finishInit s).timer = s.timer := rfl
@[simp] theorem finishInit_params (s : State) : (finishInit s).params = s.params := rfl
@[simp] theorem finishInit_script (s : State) : (finishInit s).script = s.script := rfl
@[simp] theorem finishInit_tick (s : State) : (finishInit s).tick = s.tick := rfl

@[simp] theorem resetBlock_fsm (pins : Pins) (s : State) : (resetBlock pins s).fsm = .uninit := rfl
@[simp] theorem resetBlock_seq (pins : Pins) (s : State) : (resetBlock pins s).seq = [] := rfl
@[simp] theorem resetBlock_cur (pins : Pins) (s : State) : (resetBlock pins s).cur = .none := rfl
@[simp] theorem resetBlock_txp (pins : Pins) (s : State) : (resetBlock pins s).txp = false := rfl
@[simp] theorem resetBlock_fsImg (pins : Pins) (s : State) : (resetBlock pins s).fsImg = 0x28 := rfl
@[simp] theorem resetBlock_dcImg (pins : Pins) (s : State) : (resetBlock pins s).dcImg = 0x08 := rfl
@[simp] theorem resetBlock_emImg (pins : Pins) (s : State) : (resetBlock pins s).emImg = 0x06 := rfl
@[simp] theorem resetBlock_bl (pins : Pins) (s : State) : (resetBlock pins s).bl = false := rfl
@[simp] theorem resetBlock_col (pins : Pins) (s : State) : (resetBlock pins s).col = 0 := rfl
@[simp] theorem resetBlock_row (pins : Pins) (s : State) : (resetBlock pins s).row = 0 := rfl
@[simp] theorem resetBlock_geom (pins : Pins) (s : State) : (resetBlock pins s).geom = Geometry.ofCode pins.geomIn := rfl
@[simp] theorem resetBlock_addr7 (pins : Pins) (s : State) : (resetBlock pins s).addr7 = pins.addr7In := rfl
@[simp] theorem resetBlock_rspValid (pins : Pins) (s : State) : (resetBlock pins s).rspValid = false := rfl
@[simp] theorem resetBlock_rspCode (pins : Pins) (s : State) : (resetBlock pins s).rspCode = .ok := rfl
@[simp] theorem resetBlock_timer (pins : Pins) (s : State) : (resetBlock pins s).timer = 0 := rfl
@[simp] theorem resetBlock_params (pins : Pins) (s : State) : (resetBlock pins s).params = s.params := rfl
@[simp] theorem resetBlock_script (pins : Pins) (s : State) : (resetBlock pins s).script = s.script := rfl
@[simp] theorem resetBlock_tick (pins : Pins) (s : State) : (resetBlock pins s).tick = s.tick := rfl

/-! An update of a `SET` touches the images, the backlight and the cursor only. -/

@[simp] theorem applyUpdate_fsm (u : Update) (s : State) : (applyUpdate u s).fsm = s.fsm := by
  cases u <;> rfl
@[simp] theorem applyUpdate_seq (u : Update) (s : State) : (applyUpdate u s).seq = s.seq := by
  cases u <;> rfl
@[simp] theorem applyUpdate_cur (u : Update) (s : State) : (applyUpdate u s).cur = s.cur := by
  cases u <;> rfl
@[simp] theorem applyUpdate_txp (u : Update) (s : State) : (applyUpdate u s).txp = s.txp := by
  cases u <;> rfl
@[simp] theorem applyUpdate_geom (u : Update) (s : State) : (applyUpdate u s).geom = s.geom := by
  cases u <;> rfl
@[simp] theorem applyUpdate_addr7 (u : Update) (s : State) : (applyUpdate u s).addr7 = s.addr7 := by
  cases u <;> rfl
@[simp] theorem applyUpdate_rspValid (u : Update) (s : State) : (applyUpdate u s).rspValid = s.rspValid := by
  cases u <;> rfl
@[simp] theorem applyUpdate_rspCode (u : Update) (s : State) : (applyUpdate u s).rspCode = s.rspCode := by
  cases u <;> rfl
@[simp] theorem applyUpdate_timer (u : Update) (s : State) : (applyUpdate u s).timer = s.timer := by
  cases u <;> rfl
@[simp] theorem applyUpdate_params (u : Update) (s : State) : (applyUpdate u s).params = s.params := by
  cases u <;> rfl
@[simp] theorem applyUpdate_script (u : Update) (s : State) : (applyUpdate u s).script = s.script := by
  cases u <;> rfl
@[simp] theorem applyUpdate_tick (u : Update) (s : State) : (applyUpdate u s).tick = s.tick := by
  cases u <;> rfl

@[simp] theorem applyUpdate_dcOr_fsImg (m : Byte) (s : State) : (applyUpdate (.dcOr m) s).fsImg = s.fsImg := rfl
@[simp] theorem applyUpdate_dcOr_dcImg (m : Byte) (s : State) : (applyUpdate (.dcOr m) s).dcImg = orFlag s.dcImg m := rfl
@[simp] theorem applyUpdate_dcOr_emImg (m : Byte) (s : State) : (applyUpdate (.dcOr m) s).emImg = s.emImg := rfl
@[simp] theorem applyUpdate_dcOr_bl (m : Byte) (s : State) : (applyUpdate (.dcOr m) s).bl = s.bl := rfl
@[simp] theorem applyUpdate_dcOr_col (m : Byte) (s : State) : (applyUpdate (.dcOr m) s).col = s.col := rfl
@[simp] theorem applyUpdate_dcOr_row (m : Byte) (s : State) : (applyUpdate (.dcOr m) s).row = s.row := rfl

@[simp] theorem applyUpdate_dcClr_fsImg (m : Byte) (s : State) : (applyUpdate (.dcClr m) s).fsImg = s.fsImg := rfl
@[simp] theorem applyUpdate_dcClr_dcImg (m : Byte) (s : State) : (applyUpdate (.dcClr m) s).dcImg = clrFlag s.dcImg m := rfl
@[simp] theorem applyUpdate_dcClr_emImg (m : Byte) (s : State) : (applyUpdate (.dcClr m) s).emImg = s.emImg := rfl
@[simp] theorem applyUpdate_dcClr_bl (m : Byte) (s : State) : (applyUpdate (.dcClr m) s).bl = s.bl := rfl
@[simp] theorem applyUpdate_dcClr_col (m : Byte) (s : State) : (applyUpdate (.dcClr m) s).col = s.col := rfl
@[simp] theorem applyUpdate_dcClr_row (m : Byte) (s : State) : (applyUpdate (.dcClr m) s).row = s.row := rfl

@[simp] theorem applyUpdate_emOr_fsImg (m : Byte) (s : State) : (applyUpdate (.emOr m) s).fsImg = s.fsImg := rfl
@[simp] theorem applyUpdate_emOr_dcImg (m : Byte) (s : State) : (applyUpdate (.emOr m) s).dcImg = s.dcImg := rfl
@[simp] theorem applyUpdate_emOr_emImg (m : Byte) (s : State) : (applyUpdate (.emOr m) s).emImg = orFlag s.emImg m := rfl
@[simp] theorem applyUpdate_emOr_bl (m : Byte) (s : State) : (applyUpdate (.emOr m) s).bl = s.bl := rfl
@[simp] theorem applyUpdate_emOr_col (m : Byte) (s : State) : (applyUpdate (.emOr m) s).col = s.col := rfl
@[simp] theorem applyUpdate_emOr_row (m : Byte) (s : State) : (applyUpdate (.emOr m) s).row = s.row := rfl

@[simp] theorem applyUpdate_emClr_fsImg (m : Byte) (s : State) : (applyUpdate (.emClr m) s).fsImg = s.fsImg := rfl
@[simp] theorem applyUpdate_emClr_dcImg (m : Byte) (s : State) : (applyUpdate (.emClr m) s).dcImg = s.dcImg := rfl
@[simp] theorem applyUpdate_emClr_emImg (m : Byte) (s : State) : (applyUpdate (.emClr m) s).emImg = clrFlag s.emImg m := rfl
@[simp] theorem applyUpdate_emClr_bl (m : Byte) (s : State) : (applyUpdate (.emClr m) s).bl = s.bl := rfl
@[simp] theorem applyUpdate_emClr_col (m : Byte) (s : State) : (applyUpdate (.emClr m) s).col = s.col := rfl
@[simp] theorem applyUpdate_emClr_row (m : Byte) (s : State) : (applyUpdate (.emClr m) s).row = s.row := rfl

@[simp] theorem applyUpdate_loadImgs_fsImg (s : State) : (applyUpdate (.loadImgs) s).fsImg = fsPowerOn := rfl
@[simp] theorem applyUpdate_loadImgs_dcImg (s : State) : (applyUpdate (.loadImgs) s).dcImg = dcPowerOn := rfl
@[simp] theorem applyUpdate_loadImgs_emImg (s : State) : (applyUpdate (.loadImgs) s).emImg = emPowerOn := rfl
@[simp] theorem applyUpdate_loadImgs_bl (s : State) : (applyUpdate (.loadImgs) s).bl = s.bl := rfl
@[simp] theorem applyUpdate_loadImgs_col (s : State) : (applyUpdate (.loadImgs) s).col = s.col := rfl
@[simp] theorem applyUpdate_loadImgs_row (s : State) : (applyUpdate (.loadImgs) s).row = s.row := rfl

@[simp] theorem applyUpdate_blSet_fsImg (b : Bool) (s : State) : (applyUpdate (.blSet b) s).fsImg = s.fsImg := rfl
@[simp] theorem applyUpdate_blSet_dcImg (b : Bool) (s : State) : (applyUpdate (.blSet b) s).dcImg = s.dcImg := rfl
@[simp] theorem applyUpdate_blSet_emImg (b : Bool) (s : State) : (applyUpdate (.blSet b) s).emImg = s.emImg := rfl
@[simp] theorem applyUpdate_blSet_bl (b : Bool) (s : State) : (applyUpdate (.blSet b) s).bl = b := rfl
@[simp] theorem applyUpdate_blSet_col (b : Bool) (s : State) : (applyUpdate (.blSet b) s).col = s.col := rfl
@[simp] theorem applyUpdate_blSet_row (b : Bool) (s : State) : (applyUpdate (.blSet b) s).row = s.row := rfl

@[simp] theorem applyUpdate_curHome_fsImg (s : State) : (applyUpdate (.curHome) s).fsImg = s.fsImg := rfl
@[simp] theorem applyUpdate_curHome_dcImg (s : State) : (applyUpdate (.curHome) s).dcImg = s.dcImg := rfl
@[simp] theorem applyUpdate_curHome_emImg (s : State) : (applyUpdate (.curHome) s).emImg = s.emImg := rfl
@[simp] theorem applyUpdate_curHome_bl (s : State) : (applyUpdate (.curHome) s).bl = s.bl := rfl
@[simp] theorem applyUpdate_curHome_col (s : State) : (applyUpdate (.curHome) s).col = 0 := rfl
@[simp] theorem applyUpdate_curHome_row (s : State) : (applyUpdate (.curHome) s).row = 0 := rfl

@[simp] theorem applyUpdate_curTo_fsImg (c : BitVec 6) (r : BitVec 2) (s : State) : (applyUpdate (.curTo c r) s).fsImg = s.fsImg := rfl
@[simp] theorem applyUpdate_curTo_dcImg (c : BitVec 6) (r : BitVec 2) (s : State) : (applyUpdate (.curTo c r) s).dcImg = s.dcImg := rfl
@[simp] theorem applyUpdate_curTo_emImg (c : BitVec 6) (r : BitVec 2) (s : State) : (applyUpdate (.curTo c r) s).emImg = s.emImg := rfl
@[simp] theorem applyUpdate_curTo_bl (c : BitVec 6) (r : BitVec 2) (s : State) : (applyUpdate (.curTo c r) s).bl = s.bl := rfl
@[simp] theorem applyUpdate_curTo_col (c : BitVec 6) (r : BitVec 2) (s : State) : (applyUpdate (.curTo c r) s).col = c := rfl
@[simp] theorem applyUpdate_curTo_row (c : BitVec 6) (r : BitVec 2) (s : State) : (applyUpdate (.curTo c r) s).row = r := rfl

@[simp] theorem applyUpdate_curNl_fsImg (s : State) : (applyUpdate (.curNl) s).fsImg = s.fsImg := rfl
@[simp] theorem applyUpdate_curNl_dcImg (s : State) : (applyUpdate (.curNl) s).dcImg = s.dcImg := rfl
@[simp] theorem applyUpdate_curNl_emImg (s : State) : (applyUpdate (.curNl) s).emImg = s.emImg := rfl
@[simp] theorem applyUpdate_curNl_bl (s : State) : (applyUpdate (.curNl) s).bl = s.bl := rfl
@[simp] theorem applyUpdate_curNl_col (s : State) : (applyUpdate (.curNl) s).col = 0 := rfl
@[simp] theorem applyUpdate_curNl_row (s : State) : (applyUpdate (.curNl) s).row = nextRow s.geom s.row := rfl

@[simp] theorem applyUpdate_curAdv_fsImg (s : State) :
    (applyUpdate .curAdv s).fsImg = s.fsImg := rfl
@[simp] theorem applyUpdate_curAdv_dcImg (s : State) :
    (applyUpdate .curAdv s).dcImg = s.dcImg := rfl
@[simp] theorem applyUpdate_curAdv_emImg (s : State) :
    (applyUpdate .curAdv s).emImg = s.emImg := rfl
@[simp] theorem applyUpdate_curAdv_bl (s : State) :
    (applyUpdate .curAdv s).bl = s.bl := rfl
@[simp] theorem applyUpdate_curAdv_col (s : State) :
    (applyUpdate .curAdv s).col = if atLastColumn s.geom s.col then 0 else s.col + 1 := rfl
@[simp] theorem applyUpdate_curAdv_row (s : State) :
    (applyUpdate .curAdv s).row = if atLastColumn s.geom s.col then nextRow s.geom s.row else s.row := rfl

end Sys2Proof.Machine
end

