-- ==== Sys2Proof/Laws/Ops.lean ====
section
/-!
SUPPORT. One lemma per shared operation that says everything it can do; the step's own lemma is step_cases.
-/

namespace Sys2Proof.Machine

/-- What executing a `PUT` can do: issue, wait, complete, or abort its owner. -/
theorem execPut_cases (pins : Pins) (rest : List MicroOp) (s : State) :
    (s.txp = false ∧ execPut pins rest s = { s with txp := true })
    ∨ (s.txp = true ∧ pins.txDone = false ∧ execPut pins rest s = s)
    ∨ (s.txp = true ∧ pins.txDone = true ∧ pins.txOk = true
        ∧ execPut pins rest s = popSeq rest { s with txp := false })
    ∨ (s.txp = true ∧ pins.txDone = true ∧ pins.txOk = false ∧ execPut pins rest s = abortOwner s) := by
  cases ht : s.txp <;> cases hd : pins.txDone <;> cases ho : pins.txOk <;> simp [execPut, ht, hd, ho]

/-- What executing a `WAIT` can do: end it, or let the timer run on. -/
theorem execWait_cases (pins : Pins) (t : Nat) (rest : List MicroOp) (s : State) :
    (t ≤ s.timer + pins.elapsedUs ∧ execWait pins t rest s = popSeq rest s)
    ∨ (s.timer + pins.elapsedUs < t ∧ execWait pins t rest s = { s with timer := s.timer + pins.elapsedUs }) := by
  by_cases h : t ≤ s.timer + pins.elapsedUs
  · exact .inl ⟨h, if_pos h⟩
  · exact .inr ⟨Nat.lt_of_not_le h, if_neg h⟩

/-- What the step in UNINIT can do: start the initialization sequence, or let the timer run on. -/
theorem settle_cases (pins : Pins) (s : State) :
    (s.params.tPwrSettle ≤ s.timer + pins.elapsedUs ∧ settle pins s
        = { s with fsm := .initializing, seq := initSeq s.params, cur := .init, timer := 0 })
    ∨ (s.timer + pins.elapsedUs < s.params.tPwrSettle
        ∧ settle pins s = { s with timer := s.timer + pins.elapsedUs }) := by
  by_cases h : s.params.tPwrSettle ≤ s.timer + pins.elapsedUs
  · exact .inl ⟨h, if_pos h⟩
  · exact .inr ⟨Nat.lt_of_not_le h, if_neg h⟩

/-- What a failing `PUT` does, by its owner. -/
theorem abortOwner_cases (s : State) :
    (s.cur = .init ∧ abortOwner s = { s with fsm := .failed, seq := [], cur := .none, txp := false })
    ∨ (∃ c, s.cur = .req c ∧ abortOwner s = raiseError .errIo { s with txp := false })
    ∨ (s.cur = .none ∧ abortOwner s = { s with seq := [], txp := false }) := by
  cases h : s.cur <;> simp [abortOwner, h]

/-- A request's meaning loads an expansion with the code `OK` held, or raises `ERR_ADDR`; nothing else. -/
theorem exec_cases (i : Instr) (s : State) :
    (∃ ops, exec i s = .next (loadSeq ops s)) ∨ exec i s = .next (raiseError .errAddr s) := by
  cases i <;> first
    | exact .inl ⟨_, rfl⟩
    | (simp only [exec, execLocate, execCharacter, execCreate, execPutc]
       split <;> first | exact .inl ⟨_, rfl⟩ | exact .inr rfl)

/-- The acceptance of a word runs the instruction it decodes to, or raises `ERR_ILLEGAL`. -/
theorem accept_cases (pins : Pins) (s : State) :
    (∃ i, decode pins.reqWord pins.reqGlyph = .ok i ∧ accept pins s = exec i s)
    ∨ (∃ e, decode pins.reqWord pins.reqGlyph = .error e ∧ accept pins s = .next (raiseError .errIllegal s)) := by
  cases h : decode pins.reqWord pins.reqGlyph with
  | ok i => exact .inl ⟨i, rfl, by simp [accept, h]⟩
  | error e => exact .inr ⟨e, rfl, by simp [accept, h]⟩

/-- `REQ_READY` in words (10_state.md R21). -/
@[simp] theorem reqReady_iff (s : State) : reqReady s = true ↔ s.fsm = .ready ∧ s.seq = [] ∧ s.cur = .none := by
  simp [reqReady, and_assoc]

/-- The eight cases of the step relation (10_state.md R38), with their guards. -/
theorem step_cases (s : State) :
    (s.pins.reset = true ∧ step s = .next (resetBlock s.pins (advance s)))
    ∨ (s.pins.reset = false ∧ s.fsm = .uninit ∧ step s = .next (settle s.pins (advance s)))
    ∨ (s.pins.reset = false ∧ s.fsm = .failed ∧ step s = .next (advance s))
    ∨ (s.pins.reset = false ∧ (s.fsm = .initializing ∨ s.fsm = .ready) ∧ ∃ op rest, s.seq = op :: rest
        ∧ step s = .next (execMicroOp s.pins op rest (advance s)))
    ∨ (s.pins.reset = false ∧ (s.fsm = .initializing ∨ s.fsm = .ready) ∧ s.seq = [] ∧ s.cur = .init
        ∧ step s = .next (finishInit (advance s)))
    ∨ (s.pins.reset = false ∧ (s.fsm = .initializing ∨ s.fsm = .ready) ∧ s.seq = [] ∧ ∃ code, s.cur = .req code
        ∧ step s = .next (respond code (advance s)))
    ∨ (s.pins.reset = false ∧ reqReady s = true ∧ s.pins.reqValid = true ∧ step s = accept s.pins (advance s))
    ∨ (s.pins.reset = false ∧ (s.fsm = .initializing ∨ s.fsm = .ready) ∧ s.seq = [] ∧ s.cur = .none
        ∧ (s.pins.reqValid = true → s.fsm = .initializing) ∧ step s = .next (advance s)) := by
  cases hr : s.pins.reset
  case true => simp [step, hr]
  case false =>
    cases hf : s.fsm <;> cases hs : s.seq <;> cases hc : s.cur <;> cases hv : s.pins.reqValid <;>
      simp [step, hr, hf, hs, hc, hv, reqReady]

/-! The cases of the step one by one, for a state that is known to be in one. -/

theorem step_reset (s : State) (hr : s.pins.reset = true) : step s = .next (resetBlock s.pins (advance s)) := by
  simp [step, hr]

theorem step_uninit (s : State) (hr : s.pins.reset = false) (hf : s.fsm = .uninit) :
    step s = .next (settle s.pins (advance s)) := by
  simp [step, hr, hf]

theorem step_failed (s : State) (hr : s.pins.reset = false) (hf : s.fsm = .failed) : step s = .next (advance s) := by
  simp [step, hr, hf]

theorem step_microOp (s : State) (op : MicroOp) (rest : List MicroOp) (hr : s.pins.reset = false)
    (hf : s.fsm = .initializing ∨ s.fsm = .ready) (hs : s.seq = op :: rest) :
    step s = .next (execMicroOp s.pins op rest (advance s)) := by
  rcases hf with hf | hf <;> simp [step, hr, hf, hs]

theorem step_initDone (s : State) (hr : s.pins.reset = false) (hf : s.fsm = .initializing ∨ s.fsm = .ready)
    (hs : s.seq = []) (hc : s.cur = .init) : step s = .next (finishInit (advance s)) := by
  rcases hf with hf | hf <;> simp [step, hr, hf, hs, hc]

theorem step_respond (s : State) (code : Code) (hr : s.pins.reset = false)
    (hf : s.fsm = .initializing ∨ s.fsm = .ready) (hs : s.seq = []) (hc : s.cur = .req code) :
    step s = .next (respond code (advance s)) := by
  rcases hf with hf | hf <;> simp [step, hr, hf, hs, hc]

theorem step_accept (s : State) (hr : s.pins.reset = false) (hq : reqReady s = true) (hv : s.pins.reqValid = true) :
    step s = accept s.pins (advance s) := by
  obtain ⟨hf, hs, hc⟩ := (reqReady_iff s).1 hq
  simp [step, hr, hf, hs, hc, hv]

/-- The pins of a step are read from the script and the step number alone. -/
theorem pins_congr (s t : State) (h : s.script = t.script) (ht : s.tick = t.tick) : s.pins = t.pins := by
  unfold State.pins; rw [h, ht]

@[simp] theorem pins_cons (s : State) (p : Pins) (rest : List Pins) :
    State.pins { s with script := p :: rest } = p := rfl

end Sys2Proof.Machine
end

