-- ==== Sys2Proof/Laws/PerInstr.lean ====
section
/-!
SUPPORT. Claims about every instruction, one lemma per constructor.
-/

namespace Sys2Proof.Laws.RowMatch

/-- The word of an instruction matches a row of opcode_table.json (30_encoding.md R65, R81), and its reserved field is 0. -/
def Statement (i : Instr) : Prop :=
  rsvField (encodeWord i) = 0 ∧ ∃ row ∈ opcodeTable, MatchesRow (encodeWord i) row

theorem cls : Statement .cls := by unfold Statement; decide

theorem home : Statement .home := by unfold Statement; decide

theorem locate (c r : Byte) : Statement (.locate c r) := by
  refine ⟨rsvField_packWord _ _ _ _, (0x30000000, 0xFF0000FF), by decide, BitVec.eq_of_getLsbD_eq fun i hi => ?_⟩
  simp only [encodeWord, BitVec.getLsbD_and, packWord_getLsbD]
  interval_cases i <;> simp

theorem displayOn : Statement .displayOn := by unfold Statement; decide

theorem displayOff : Statement .displayOff := by unfold Statement; decide

theorem cursorOn : Statement .cursorOn := by unfold Statement; decide

theorem cursorOff : Statement .cursorOff := by unfold Statement; decide

theorem blinkOn : Statement .blinkOn := by unfold Statement; decide

theorem blinkOff : Statement .blinkOff := by unfold Statement; decide

theorem scrollLeft : Statement .scrollLeft := by unfold Statement; decide

theorem scrollRight : Statement .scrollRight := by unfold Statement; decide

theorem leftToRight : Statement .leftToRight := by unfold Statement; decide

theorem rightToLeft : Statement .rightToLeft := by unfold Statement; decide

theorem autoscrollOn : Statement .autoscrollOn := by unfold Statement; decide

theorem autoscrollOff : Statement .autoscrollOff := by unfold Statement; decide

theorem backlightOn : Statement .backlightOn := by unfold Statement; decide

theorem backlightOff : Statement .backlightOff := by unfold Statement; decide

theorem character (c r v : Byte) : Statement (.character c r v) := by
  refine ⟨rsvField_packWord _ _ _ _, (0x50000000, 0xFF000000), by decide, BitVec.eq_of_getLsbD_eq fun i hi => ?_⟩
  simp only [encodeWord, BitVec.getLsbD_and, packWord_getLsbD]
  interval_cases i <;> simp

theorem create (slot : Byte) (g : Glyph) : Statement (.create slot g) := by
  refine ⟨rsvField_packWord _ _ _ _, (0x60000000, 0xFF00FFFF), by decide, BitVec.eq_of_getLsbD_eq fun i hi => ?_⟩
  simp only [encodeWord, BitVec.getLsbD_and, packWord_getLsbD]
  interval_cases i <;> simp

theorem putc (ch : Byte) : Statement (.putc ch) := by
  refine ⟨rsvField_packWord _ _ _ _, (0x70000000, 0xFFFFFF00), by decide, BitVec.eq_of_getLsbD_eq fun i hi => ?_⟩
  simp only [encodeWord, BitVec.getLsbD_and, packWord_getLsbD]
  interval_cases i <;> simp

end Sys2Proof.Laws.RowMatch
end

