-- ==== Sys2Proof/Laws/Runs.lean ====
section
/-!
SUPPORT. What lists of micro-ops stand for, through append and through the macros; runs, one step at a time.
-/

namespace Sys2Proof.Machine

/-- The backlight level after the updates of a list. -/
def blAfter : Bool → List MicroOp → Bool
  | bl, [] => bl
  | _, .set (.blSet b) :: ops => blAfter b ops
  | bl, _ :: ops => blAfter bl ops

theorem bytesOf_append (p : Params) (ops ops' : List MicroOp) (bl : Bool) :
    bytesOf p bl (ops ++ ops') = bytesOf p bl ops ++ bytesOf p (blAfter bl ops) ops' := by
  induction ops generalizing bl with
  | nil => rfl
  | cons op ops ih =>
    cases op with
    | put q => simp [bytesOf, blAfter, ih]
    | wait t => simp [bytesOf, blAfter, ih]
    | set u => cases u <;> simp [bytesOf, blAfter, ih]

@[simp] theorem waitsOf_append (ops ops' : List MicroOp) : waitsOf (ops ++ ops') = waitsOf ops + waitsOf ops' := by
  induction ops with
  | nil => simp [waitsOf]
  | cons op ops ih => cases op <;> simp [waitsOf, ih, Nat.add_assoc]

@[simp] theorem stepsOf_append (ops ops' : List MicroOp) : stepsOf (ops ++ ops') = stepsOf ops + stepsOf ops' := by
  induction ops with
  | nil => simp [stepsOf]
  | cons op ops ih => cases op <;> simp [stepsOf, ih, Nat.add_assoc]

@[simp] theorem updatesOf_append (ops ops' : List MicroOp) :
    updatesOf (ops ++ ops') = updatesOf ops ++ updatesOf ops' := by
  induction ops with
  | nil => rfl
  | cons op ops ih => cases op <;> simp [updatesOf, ih]

@[simp] theorem applySets_append (ops ops' : List MicroOp) (s : State) :
    applySets (ops ++ ops') s = applySets ops' (applySets ops s) := by
  induction ops generalizing s with
  | nil => rfl
  | cons op ops ih => cases op <;> simp [applySets, ih]

/-- A nibble changes no register and sends its three payloads (40_nibble_framer.md R88). -/
@[simp] theorem applySets_nibble (p : Params) (n : Byte) (rs : RegSel) (s : State) :
    applySets (nibble p n rs) s = s := rfl

@[simp] theorem updatesOf_nibble (p : Params) (n : Byte) (rs : RegSel) : updatesOf (nibble p n rs) = [] := rfl

@[simp] theorem updatesOf_frame (p : Params) (v : Byte) (rs : RegSel) : updatesOf (frame p v rs) = [] := rfl

@[simp] theorem applySets_frame (p : Params) (v : Byte) (rs : RegSel) (s : State) :
    applySets (frame p v rs) s = s := rfl

@[simp] theorem blAfter_append (ops ops' : List MicroOp) (bl : Bool) :
    blAfter bl (ops ++ ops') = blAfter (blAfter bl ops) ops' := by
  induction ops generalizing bl with
  | nil => rfl
  | cons op ops ih =>
    cases op with
    | put q => simp [blAfter, ih]
    | wait t => simp [blAfter, ih]
    | set u => cases u <;> simp [blAfter, ih]

@[simp] theorem blAfter_frame (p : Params) (v : Byte) (rs : RegSel) (bl : Bool) : blAfter bl (frame p v rs) = bl := rfl

@[simp] theorem waitsOf_nibble (p : Params) (n : Byte) (rs : RegSel) :
    waitsOf (nibble p n rs) = p.tSetup + (p.tPulse + p.tExec) := rfl

@[simp] theorem waitsOf_frame (p : Params) (v : Byte) (rs : RegSel) :
    waitsOf (frame p v rs) = 2 * (p.tSetup + (p.tPulse + p.tExec)) := by
  rw [frame, waitsOf_append, waitsOf_nibble, waitsOf_nibble]; omega

@[simp] theorem stepsOf_nibble (p : Params) (n : Byte) (rs : RegSel) : stepsOf (nibble p n rs) = 9 := rfl

@[simp] theorem stepsOf_frame (p : Params) (v : Byte) (rs : RegSel) : stepsOf (frame p v rs) = 18 := rfl

/-- An update reads and writes the registers only. -/
theorem registers_applyUpdate (u : Update) (s s' : State) (h : registers s = registers s') :
    registers (applyUpdate u s) = registers (applyUpdate u s') := by
  simp only [registers, Prod.mk.injEq] at h
  obtain ⟨h1, h2, h3, h4, h5, h6, h7, h8⟩ := h
  cases u <;> simp [registers, h1, h2, h3, h4, h5, h6, h7, h8]

/-- So do the updates of a list. -/
theorem registers_applySets (ops : List MicroOp) (s s' : State) (h : registers s = registers s') :
    registers (applySets ops s) = registers (applySets ops s') := by
  induction ops generalizing s s' with
  | nil => exact h
  | cons op ops ih =>
    cases op with
    | put q => exact ih s s' h
    | wait t => exact ih s s' h
    | set u => exact ih _ _ (registers_applyUpdate u s s' h)

/-- The updates of a list write the images, the backlight and the cursor only. -/
theorem applySets_frame_fields (ops : List MicroOp) (s : State) :
    (applySets ops s).fsm = s.fsm ∧ (applySets ops s).seq = s.seq ∧ (applySets ops s).cur = s.cur
    ∧ (applySets ops s).txp = s.txp ∧ (applySets ops s).geom = s.geom ∧ (applySets ops s).addr7 = s.addr7
    ∧ (applySets ops s).params = s.params ∧ (applySets ops s).timer = s.timer := by
  induction ops generalizing s with
  | nil => simp [applySets]
  | cons op ops ih => cases op <;> simp [applySets, ih]

@[simp] theorem after_zero (s : State) : after 0 s = s := rfl

@[simp] theorem after_succ (k : Nat) (s : State) : after (k + 1) s = after k (next s) := rfl

/-- A run of `m + n` steps is a run of `m` steps and then one of `n`. -/
theorem after_add (m n : Nat) (s : State) : after (m + n) s = after n (after m s) := by
  induction m generalizing s with
  | zero => simp
  | succ m ih => rw [Nat.succ_add, after_succ, after_succ, ih]

theorem trace_add (m n : Nat) (s : State) : trace (m + n) s = trace m s ++ trace n (after m s) := by
  induction m generalizing s with
  | zero => simp [trace]
  | succ m ih => rw [Nat.succ_add, trace, trace, after_succ, ih, List.append_assoc]

end Sys2Proof.Machine
end

