-- ==== Sys2Proof/Tests/Slice0.lean ====
section
/-!
SUPPORT. Tests: the checks of WellFormed, words written out from 30_encoding.md, the vectors of 95_test_vectors.md for single
requests, and a witness for the hypotheses of every statement of Obligations.lean that has some.
-/

namespace Sys2Proof.Tests

open Sys2Proof.Machine

/-! ### WellFormed refuses (30_encoding.md R79) -/

theorem test_wf_accepts : (AsmLine.locate 255 255).wellFormed = true ∧ (AsmLine.create 255 [0, 0, 0, 0, 0, 0, 0, 255]).wellFormed = true
    ∧ (AsmLine.puts []).wellFormed = true := by decide

theorem test_wf_locate_column : (AsmLine.locate 256 0).wellFormed = false := by decide

theorem test_wf_locate_row : (AsmLine.locate 0 256).wellFormed = false := by decide

theorem test_wf_character_column : (AsmLine.character 256 0 0).wellFormed = false := by decide

theorem test_wf_character_row : (AsmLine.character 0 256 0).wellFormed = false := by decide

theorem test_wf_character_value : (AsmLine.character 0 0 256).wellFormed = false := by decide

theorem test_wf_create_slot : (AsmLine.create 256 [0, 0, 0, 0, 0, 0, 0, 0]).wellFormed = false := by decide

theorem test_wf_create_seven_bytes : (AsmLine.create 0 [0, 0, 0, 0, 0, 0, 0]).wellFormed = false := by decide

theorem test_wf_create_byte : (AsmLine.create 0 [0, 0, 0, 0, 0, 0, 0, 256]).wellFormed = false := by decide

theorem test_wf_putc : (AsmLine.putc 256).wellFormed = false := by decide

theorem test_wf_puts : (AsmLine.puts [72, 256]).wellFormed = false := by decide

/-- 95_test_vectors.md P1 rows 3 to 5 and P3 row 5, with the assembler's refusal of an ill-formed line. -/
theorem test_assemble : assemble (.puts [72, 105, 10]) = some [(0x70000048, 0), (0x70000069, 0), (0x7000000A, 0)]
    ∧ assemble (.create 1 [0x00, 0x0A, 0x1F, 0x1F, 0x0E, 0x04, 0x00, 0x00]) = some [(0x60010000, 0x0000040E1F1F0A00)]
    ∧ assemble (.display .cursorOn) = some [(0x40000002, 0)] ∧ assemble (.locate 256 0) = none := by decide

/-! ### Decoding, OP RSV A B C written out from 30_encoding.md R63 to R66 -/

theorem test_decode_cls : decodeTableWord 32 0b0001_0000_00000000_00000000_00000000 = some .cls := by decide

theorem test_decode_home : decodeTableWord 32 0b0010_0000_00000000_00000000_00000000 = some .home := by decide

theorem test_decode_locate : decodeTableWord 32 0b0011_0000_00010011_00000011_00000000 = some (.locate 19 3) := by decide

theorem test_decode_displayOn : decodeTableWord 32 0b0100_0000_00000000_00000000_00000000 = some .displayOn := by decide

theorem test_decode_displayOff : decodeTableWord 32 0b0100_0000_00000000_00000000_00000001 = some .displayOff := by decide

theorem test_decode_cursorOn : decodeTableWord 32 0b0100_0000_00000000_00000000_00000010 = some .cursorOn := by decide

theorem test_decode_cursorOff : decodeTableWord 32 0b0100_0000_00000000_00000000_00000011 = some .cursorOff := by decide

theorem test_decode_blinkOn : decodeTableWord 32 0b0100_0000_00000000_00000000_00000100 = some .blinkOn := by decide

theorem test_decode_blinkOff : decodeTableWord 32 0b0100_0000_00000000_00000000_00000101 = some .blinkOff := by decide

theorem test_decode_scrollLeft : decodeTableWord 32 0b0100_0000_00000000_00000000_00000110 = some .scrollLeft := by decide

theorem test_decode_scrollRight : decodeTableWord 32 0b0100_0000_00000000_00000000_00000111 = some .scrollRight := by decide

theorem test_decode_leftToRight : decodeTableWord 32 0b0100_0000_00000000_00000000_00001000 = some .leftToRight := by decide

theorem test_decode_rightToLeft : decodeTableWord 32 0b0100_0000_00000000_00000000_00001001 = some .rightToLeft := by decide

theorem test_decode_autoscrollOn : decodeTableWord 32 0b0100_0000_00000000_00000000_00001010 = some .autoscrollOn := by decide

theorem test_decode_autoscrollOff : decodeTableWord 32 0b0100_0000_00000000_00000000_00001011 = some .autoscrollOff := by
  decide

theorem test_decode_backlightOn : decodeTableWord 32 0b0100_0000_00000000_00000000_00001100 = some .backlightOn := by decide

theorem test_decode_backlightOff : decodeTableWord 32 0b0100_0000_00000000_00000000_00001101 = some .backlightOff := by decide

theorem test_decode_character : decodeTableWord 32 0b0101_0000_00010011_00000011_01000001 = some (.character 19 3 0x41) := by
  decide

theorem test_decode_create : decodeTableWord 32 0b0110_0000_00000001_00000000_00000000 = some (.create 1 0)
    ∧ decodeTableWord 96 (0x0000040E1F1F0A00_60010000) = some (.create 1 0x0000040E1F1F0A00) := by decide

theorem test_decode_putc : decodeTableWord 32 0b0111_0000_00000000_00000000_01001000 = some (.putc 0x48) := by decide

/-- 95_test_vectors.md V4, V5, V6, V8, V9: the illegal words. -/
theorem test_decode_illegal : ∀ w ∈ [0x00000000, 0x80000000, 0xF0000000, 0x11000000, 0x10000001, 0x20010000, 0x4000000E, 0x400000FF,
    0x40010000, 0x30000001, 0x31100000, 0x51000000, 0x60000100, 0x60000001, 0x70000100], decodeTableWord 32 w = none := by
  decide

/-! ### One request each (95_test_vectors.md) -/

/-- S0 of 95_test_vectors.md, on a panel. -/
def ready (g : Geometry) : State :=
  { State.reset with fsm := .ready, dcImg := 0x0C, bl := true, geom := g }

/-- S0 with a cursor. -/
def at_ (g : Geometry) (c : BitVec 6) (r : BitVec 2) : State := { ready g with col := c, row := r }

/-- The bytes of a request, and `DC_IMG`, `EM_IMG`, `BL`, `COL`, `ROW` when it has run. -/
def ran (i : Instr) (s : State) : List Byte × Byte × Byte × Bool × BitVec 6 × BitVec 2 :=
  match exec i s with
  | .next t =>
    let u := applySets t.seq t
    (bytesOf s.params s.bl t.seq, u.dcImg, u.emImg, u.bl, u.col, u.row)
  | .fault _ => ([], 0, 0, false, 0, 0)
  | .refused _ => ([], 0, 0, false, 0, 0)

/-- The code held at acceptance. -/
def heldCode (i : Instr) (s : State) : Owner :=
  match exec i s with
  | .next t => t.cur
  | .fault _ => .none
  | .refused _ => .none

/-- P1 row 1 and V3: the cursor goes home. -/
theorem test_cls : ran .cls (at_ .g16x2 7 1)
    = ([0x08, 0x0C, 0x08, 0x18, 0x1C, 0x18, 0x08, 0x0C, 0x08, 0x28, 0x2C, 0x28], 0x0C, 0x06, true, 0, 0) := by decide

/-- V3: without `CLS_HOME`, and with the backlight off. -/
theorem test_cls_without_home :
    ran .cls { at_ .g16x2 7 1 with params := { Params.default with clsHome := false }, bl := false }
      = ([0x00, 0x04, 0x00, 0x10, 0x14, 0x10], 0x0C, 0x06, false, 0, 0) := by decide

/-- V3. -/
theorem test_home : ran .home (at_ .g16x2 5 1) = ([0x08, 0x0C, 0x08, 0x28, 0x2C, 0x28], 0x0C, 0x06, true, 0, 0) := by decide

/-- V5: the last cell of each panel. -/
theorem test_locate : ran (.locate 15 1) (ready .g16x2) = ([], 0x0C, 0x06, true, 15, 1)
    ∧ ran (.locate 19 3) (ready .g20x4) = ([], 0x0C, 0x06, true, 19, 3)
    ∧ ran (.locate 39 1) (ready .g40x2) = ([], 0x0C, 0x06, true, 39, 1) := by
  refine ⟨?_, ?_, ?_⟩ <;> decide

/-- V5: one past the last cell. -/
theorem test_locate_refused : heldCode (.locate 16 0) (at_ .g16x2 3 0) = .req .errAddr
    ∧ heldCode (.locate 0 2) (at_ .g16x2 3 0) = .req .errAddr ∧ heldCode (.locate 0 4) (ready .g20x4) = .req .errAddr
    ∧ ran (.locate 40 0) (ready .g40x2) = ([], 0x0C, 0x06, true, 0, 0) := by decide

/-- V4. -/
theorem test_displayOn : ran .displayOn (ready .g16x2) = ([0x08, 0x0C, 0x08, 0xC8, 0xCC, 0xC8], 0x0C, 0x06, true, 0, 0) := by
  decide

/-- V4, the corner that keeps C and B. -/
theorem test_displayOff : ran .displayOff { ready .g16x2 with dcImg := 0x0F }
    = ([0x08, 0x0C, 0x08, 0xB8, 0xBC, 0xB8], 0x0B, 0x06, true, 0, 0) := by decide

/-- E8 row 1. -/
theorem test_cursorOn : ran .cursorOn (ready .g16x2) = ([0x08, 0x0C, 0x08, 0xE8, 0xEC, 0xE8], 0x0E, 0x06, true, 0, 0) := by
  decide

/-- E8 row 3. -/
theorem test_cursorOff : ran .cursorOff { ready .g16x2 with dcImg := 0x0F }
    = ([0x08, 0x0C, 0x08, 0xD8, 0xDC, 0xD8], 0x0D, 0x06, true, 0, 0) := by decide

/-- E8 row 2. -/
theorem test_blinkOn : ran .blinkOn { ready .g16x2 with dcImg := 0x0E }
    = ([0x08, 0x0C, 0x08, 0xF8, 0xFC, 0xF8], 0x0F, 0x06, true, 0, 0) := by decide

/-- V4. -/
theorem test_blinkOff : ran .blinkOff (ready .g16x2) = ([0x08, 0x0C, 0x08, 0xC8, 0xCC, 0xC8], 0x0C, 0x06, true, 0, 0) := by
  decide

/-- V4. -/
theorem test_scrollLeft : ran .scrollLeft (ready .g16x2) = ([0x18, 0x1C, 0x18, 0x88, 0x8C, 0x88], 0x0C, 0x06, true, 0, 0) := by
  decide

/-- V4. -/
theorem test_scrollRight : ran .scrollRight (ready .g16x2) = ([0x18, 0x1C, 0x18, 0xC8, 0xCC, 0xC8], 0x0C, 0x06, true, 0, 0) := by
  decide

/-- V4. -/
theorem test_leftToRight : ran .leftToRight (ready .g16x2) = ([0x08, 0x0C, 0x08, 0x68, 0x6C, 0x68], 0x0C, 0x06, true, 0, 0) := by
  decide

/-- V4, the corner that keeps S. -/
theorem test_rightToLeft : ran .rightToLeft { ready .g16x2 with emImg := 0x07 }
    = ([0x08, 0x0C, 0x08, 0x58, 0x5C, 0x58], 0x0C, 0x05, true, 0, 0) := by decide

/-- V4. -/
theorem test_autoscrollOn : ran .autoscrollOn (ready .g16x2) = ([0x08, 0x0C, 0x08, 0x78, 0x7C, 0x78], 0x0C, 0x07, true, 0, 0) := by
  decide

/-- V4, the corner that keeps ID clear. -/
theorem test_autoscrollOff : ran .autoscrollOff { ready .g16x2 with emImg := 0x05 }
    = ([0x08, 0x0C, 0x08, 0x48, 0x4C, 0x48], 0x0C, 0x04, true, 0, 0) := by decide

/-- E7 row 1: the byte carries the new level. -/
theorem test_backlightOn : ran .backlightOn { ready .g16x2 with bl := false } = ([0x08], 0x0C, 0x06, true, 0, 0) := by decide

/-- E7 row 4. -/
theorem test_backlightOff : ran .backlightOff (ready .g16x2) = ([0x00], 0x0C, 0x06, false, 0, 0) := by decide

/-- V6: the third row of 20×4. -/
theorem test_character : ran (.character 0 2 0x78) (at_ .g20x4 3 1)
    = ([0x98, 0x9C, 0x98, 0x48, 0x4C, 0x48, 0x79, 0x7D, 0x79, 0x89, 0x8D, 0x89], 0x0C, 0x06, true, 3, 1) := by decide

/-- V6: never 0xFF. -/
theorem test_character_refused : heldCode (.character 0 4 0x78) (ready .g20x4) = .req .errAddr
    ∧ heldCode (.character 16 0 0x78) (ready .g16x2) = .req .errAddr
    ∧ ran (.character 0 255 0) (at_ .g20x4 3 1) = ([], 0x0C, 0x06, true, 3, 1) := by decide

/-- V8 row 1: command 0x48, then the glyph bytes 0x00, 0x0A, 0x1F, 0x1F, 0x0E, 0x04, 0x00, 0x00. -/
theorem test_create : (ran (.create 1 0x0000040E1F1F0A00) (ready .g16x2)).1
    = [0x48, 0x4C, 0x48, 0x88, 0x8C, 0x88] ++ [0x09, 0x0D, 0x09, 0x09, 0x0D, 0x09] ++ [0x09, 0x0D, 0x09, 0xA9, 0xAD, 0xA9]
      ++ [0x19, 0x1D, 0x19, 0xF9, 0xFD, 0xF9] ++ [0x19, 0x1D, 0x19, 0xF9, 0xFD, 0xF9] ++ [0x09, 0x0D, 0x09, 0xE9, 0xED, 0xE9]
      ++ [0x09, 0x0D, 0x09, 0x49, 0x4D, 0x49] ++ [0x09, 0x0D, 0x09, 0x09, 0x0D, 0x09] ++ [0x09, 0x0D, 0x09, 0x09, 0x0D, 0x09] := by
  decide

/-- E6: slot 7 is the last that uploads, slot 8 sends nothing and completes `OK`. -/
theorem test_create_slots : (ran (.create 7 0) (ready .g16x2)).1.take 6 = [0x78, 0x7C, 0x78, 0x88, 0x8C, 0x88]
    ∧ (ran (.create 8 5) (ready .g16x2)).1 = [] ∧ heldCode (.create 8 5) (ready .g16x2) = .req .ok := by decide

/-- V7: the last cell wraps to the first. -/
theorem test_putc : ran (.putc 0x5A) (at_ .g16x2 15 1)
    = ([0xC8, 0xCC, 0xC8, 0xF8, 0xFC, 0xF8, 0x59, 0x5D, 0x59, 0xA9, 0xAD, 0xA9], 0x0C, 0x06, true, 0, 0)
    ∧ (ran (.putc 0x61) (at_ .g20x4 19 1)).2 = (0x0C, 0x06, true, 0, 2) := by decide

/-- E5. -/
theorem test_putc_newline : ran (.putc 0x0A) (at_ .g16x2 5 0) = ([], 0x0C, 0x06, true, 0, 1)
    ∧ ran (.putc 0x0A) (at_ .g20x4 0 3) = ([], 0x0C, 0x06, true, 0, 0) := by decide

/-- V1: non-default positions, `BIT_EN = 3` and `BIT_BL = 2`. -/
theorem test_nibble_positions :
    bytesOf { Params.default with bitEn := 3, bitBl := 2 } true (nibble { Params.default with bitEn := 3, bitBl := 2 } 0x30 .cmd)
      = [0x34, 0x3C, 0x34] := by decide

/-- E2 and V5: the mapper. -/
theorem test_address : address .g16x2 3 1 = (0xC3, true) ∧ address .g40x2 39 1 = (0xE7, true) ∧ address .g16x2 0 2 = (0x00, true)
    ∧ address .g20x4 5 3 = (0xD9, true) ∧ address .g20x4 0 4 = (0xFF, false) ∧ address .g16x2 200 0 = (0x48, true) := by decide

/-! ### Witnesses: the hypotheses of the statements, met together, each clause at a boundary -/

/-- Pins on which nothing happens. -/
def quiet : Pins := ⟨false, 0, 0, false, 0, 0, false, false, 0⟩

/-- 10_state.md R33, R40 and 60_exceptions.md R150: the status outputs while a request runs, and the last code. -/
theorem test_status : statusState (ready .g16x2) = 2 ∧ statusBusy (ready .g16x2) = false
    ∧ statusBusy { ready .g16x2 with cur := .req .ok } = true ∧ statusInitFail { ready .g16x2 with fsm := .failed } = true
    ∧ Code.errIo.toBits = 3 := by decide

/-- The transport's answer. -/
def answer (ok : Bool) : Pins := { quiet with txDone := true, txOk := ok }

/-- Some time passes. -/
def later (us : Nat) : Pins := { quiet with elapsedUs := us }

/-- A request on the port. -/
def ask (w : Word) : Pins := { quiet with reqValid := true, reqWord := w }

/-- Everything answered at once, and time enough for any wait. -/
def prompt : Pins := { quiet with txDone := true, txOk := true, elapsedUs := 20000 }

/-- S0 with pins for the next steps. -/
def with_ (ps : List Pins) : State := { ready .g16x2 with script := ps }

/-- A request in progress. -/
def running (ops : List MicroOp) (ps : List Pins) : State := { with_ ps with seq := ops, cur := .req .ok }

/-- A request in progress whose `PUT` is on the transport. -/
def waiting (ops : List MicroOp) (ps : List Pins) : State := { running ops ps with txp := true }

/-- Initialization in progress. -/
def booting (ops : List MicroOp) (ps : List Pins) : State :=
  { State.reset with fsm := .initializing, seq := ops, cur := .init, script := ps }

/-- The invariant of a state whose registers are those of reset or of S0, from the agreement of its control state. -/
theorem inv_of (s : State) (hr : s.params = Params.default ∧ s.fsImg = 0x28 ∧ (s.dcImg = 0x08 ∨ s.dcImg = 0x0C) ∧ s.emImg = 0x06
      ∧ s.col = 0 ∧ s.row = 0 ∧ s.timer = 0)
    (hq : s.seq = [] ∨ s.seq = [.put 0])
    (hc : (s.fsm = .ready ∧ s.cur = .none ∧ s.seq = [] ∧ s.txp = false)
      ∨ (s.fsm = .uninit ∧ s.cur = .none ∧ s.seq = [] ∧ s.txp = false)
      ∨ (s.fsm = .initializing ∧ s.cur = .init ∧ (s.txp = false ∨ s.seq = [.put 0]))
      ∨ (s.fsm = .ready ∧ s.cur = .req .ok ∧ (s.txp = false ∨ s.seq = [.put 0]))
      ∨ (s.fsm = .ready ∧ (∃ c, s.cur = .req c) ∧ s.seq = [] ∧ s.txp = false)) : Inv s := by
  obtain ⟨h1, h2, h3, h4, h5, h6, h7⟩ := hr
  have hb : 0 < columns s.geom ∧ 0 < rows s.geom := by cases s.geom <;> decide
  have hs : ∀ op ∈ s.seq, OpSafe s.params s.geom op := by
    rcases hq with hq | hq <;> simp [hq, h1, OpSafe]
  refine ⟨by rw [h1]; decide, h2, by rcases h3 with h | h <;> rw [h] <;> decide, by rw [h4]; decide, ⟨by rw [h5]; exact hb.1, by rw [h6]; exact hb.2⟩,
    hs, ?_, ?_, ?_, ?_, ?_, ?_, ?_, fun ht => by omega⟩ <;>
  rcases hc with ⟨a, b, c, d⟩ | ⟨a, b, c, d⟩ | ⟨a, b, d | d⟩ | ⟨a, b, d | d⟩ | ⟨a, ⟨e, b⟩, c, d⟩ <;> simp [*]

theorem inv_with (ps : List Pins) : Inv (with_ ps) :=
  inv_of _ ⟨rfl, rfl, .inr rfl, rfl, rfl, rfl, rfl⟩ (.inl rfl) (.inl ⟨rfl, rfl, rfl, rfl⟩)

theorem inv_running (ps : List Pins) : Inv (running [.put 0] ps) :=
  inv_of _ ⟨rfl, rfl, .inr rfl, rfl, rfl, rfl, rfl⟩ (.inr rfl) (.inr (.inr (.inr (.inl ⟨rfl, rfl, .inl rfl⟩))))

theorem inv_waiting (ps : List Pins) : Inv (waiting [.put 0] ps) :=
  inv_of _ ⟨rfl, rfl, .inr rfl, rfl, rfl, rfl, rfl⟩ (.inr rfl) (.inr (.inr (.inr (.inl ⟨rfl, rfl, .inr rfl⟩))))

/-- The answer to a request that has run. -/
theorem inv_answering (c : Code) (ps : List Pins) : Inv { with_ ps with cur := .req c } :=
  inv_of _ ⟨rfl, rfl, .inr rfl, rfl, rfl, rfl, rfl⟩ (.inl rfl) (.inr (.inr (.inr (.inr ⟨rfl, ⟨c, rfl⟩, rfl, rfl⟩))))

theorem inv_uninit (ps : List Pins) : Inv { State.reset with script := ps } :=
  inv_of _ ⟨rfl, rfl, .inl rfl, rfl, rfl, rfl, rfl⟩ (.inl rfl) (.inr (.inl ⟨rfl, rfl, rfl, rfl⟩))

theorem inv_booted (ps : List Pins) : Inv (booting [] ps) :=
  inv_of _ ⟨rfl, rfl, .inl rfl, rfl, rfl, rfl, rfl⟩ (.inl rfl) (.inr (.inr (.inl ⟨rfl, rfl, .inl rfl⟩)))

theorem inv_booting (ps : List Pins) : Inv (booting [.put 0] ps) :=
  inv_of _ ⟨rfl, rfl, .inl rfl, rfl, rfl, rfl, rfl⟩ (.inr rfl) (.inr (.inr (.inl ⟨rfl, rfl, .inl rfl⟩)))

theorem inv_boot_waiting (ps : List Pins) : Inv { booting [.put 0] ps with txp := true } :=
  inv_of _ ⟨rfl, rfl, .inl rfl, rfl, rfl, rfl, rfl⟩ (.inr rfl) (.inr (.inr (.inl ⟨rfl, rfl, .inr rfl⟩)))

/-- LegalWordIsTheEncodingOfItsInstruction, at both ends of the operand. -/
theorem test_witness_legal_word : decode 0x60FF0000 7 = .ok (.create 255 7) ∧ decode 0x70000000 0 = .ok (.putc 0) := ⟨rfl, rfl⟩

/-- DecoderAcceptsExactlyTheTableRows: a word, and a row it matches. -/
theorem test_witness_matches_row : (0x60000000, 0xFF00FFFF) ∈ opcodeTable ∧ MatchesRow 0x60FF0000 (0x60000000, 0xFF00FFFF)
    ∧ ∃ i, decode 0x60FF0000 0 = .ok i := ⟨by decide, by decide, _, rfl⟩

/-- IllegalWordCompletesWithErrIllegal: every clause of R75 at its edge. -/
theorem test_witness_illegal_words : IllegalWord 0x00000000 ∧ IllegalWord 0x80000000 ∧ IllegalWord 0x11000000 ∧ IllegalWord 0x10000001
    ∧ IllegalWord 0x20800000 ∧ IllegalWord 0x30000001 ∧ IllegalWord 0x4000000E ∧ IllegalWord 0x40000100
    ∧ IllegalWord 0x60000100 ∧ IllegalWord 0x70800000 := by
  refine ⟨?_, ?_, ?_, ?_, ?_, ?_, ?_, ?_, ?_, ?_⟩ <;> unfold IllegalWord <;> decide

/-- IllegalWordCompletesWithErrIllegal: the state. -/
theorem test_witness_illegal : let s := with_ [ask 0x80000000, quiet]
    reqReady s = true ∧ s.pins.reset = false ∧ s.pins.reqValid = true ∧ IllegalWord s.pins.reqWord
      ∧ (next s).pins.reset = false :=
  ⟨rfl, rfl, rfl, .inr (.inl (by decide)), rfl⟩

/-- AssemblerGivesTheSpecWords: the largest operands pass and the next are refused, in each form. -/
theorem test_witness_assembler : assemble (.locate 255 255) = some [(0x30FFFF00, 0)] ∧ assemble (.locate 255 256) = none
    ∧ assemble (.character 255 255 255) = some [(0x50FFFFFF, 0)] ∧ assemble (.character 255 255 256) = none
    ∧ assemble (.putc 255) = some [(0x700000FF, 0)] ∧ assemble (.putc 256) = none
    ∧ assemble (.create 255 [255, 0, 0, 0, 0, 0, 0, 0]) = some [(0x60FF0000, 0xFF)]
    ∧ assemble (.create 256 [0, 0, 0, 0, 0, 0, 0, 0]) = none := by
  refine ⟨?_, ?_, ?_, ?_, ?_, ?_, ?_, ?_⟩ <;> decide

/-- StepRunsTheDecodedRequest, and PlacedRequestIsRunNext. -/
theorem test_witness_step_runs : let s := with_ [ask 0x10000000]
    reqReady s = true ∧ s.pins.reset = false ∧ s.pins.reqValid = true ∧ decode s.pins.reqWord s.pins.reqGlyph = .ok .cls
      ∧ decodeTableWord 32 0x10000000 = some .cls := by
  refine ⟨?_, ?_, ?_, ?_, ?_⟩ <;> rfl

/-- RequestPinsAreIgnoredUnlessReady: while booting, and while a request runs. -/
theorem test_witness_not_ready : reqReady State.reset = false ∧ reqReady (running [.put 0] []) = false := by decide

/-- ResetTakesPrecedence, with a write outstanding (V10). -/
theorem test_witness_reset : (waiting [.put 0] [{ answer true with reset := true, geomIn := 3 }]).pins.reset = true := rfl

/-- InitializationStartsAfterPowerSettle: one µs too early, and in time. -/
theorem test_witness_settle : let s (us : Nat) : State :=
      { State.reset with params := { Params.default with tPwrSettle := 10 }, script := [later us] }
    ((s 9).pins.reset = false ∧ (s 9).fsm = .uninit ∧ (s 9).timer + (s 9).pins.elapsedUs < (s 9).params.tPwrSettle)
    ∧ ((s 10).pins.reset = false ∧ (s 10).fsm = .uninit ∧ (s 10).params.tPwrSettle ≤ (s 10).timer + (s 10).pins.elapsedUs) := by
  decide

/-- FsmTransitionsAreThoseOfTheSpec: each of the four transitions. -/
theorem test_witness_fsm :
    (Inv (with_ [{ quiet with reset := true }]) ∧ (next (with_ [{ quiet with reset := true }])).fsm = .uninit)
    ∧ (Inv { State.reset with script := [quiet] } ∧ (next { State.reset with script := [quiet] }).fsm = .initializing)
    ∧ (Inv (booting [] [quiet]) ∧ (next (booting [] [quiet])).fsm = .ready)
    ∧ (Inv { booting [.put 0] [answer false] with txp := true }
        ∧ (next { booting [.put 0] [answer false] with txp := true }).fsm = .failed) :=
  ⟨⟨inv_with _, rfl⟩, ⟨inv_uninit _, rfl⟩, ⟨inv_booted _, rfl⟩, ⟨inv_boot_waiting _, rfl⟩⟩

/-- OwnerChangesAreThoseOfTheSpec: each of the five changes (the first two are in test_witness_fsm). -/
theorem test_witness_owner :
    (Inv (with_ [ask 0x80000000]) ∧ (next (with_ [ask 0x80000000])).cur = .req .errIllegal)
    ∧ (Inv (with_ [ask 0x10000000]) ∧ (next (with_ [ask 0x10000000])).cur = .req .ok)
    ∧ (Inv { with_ [quiet] with cur := .req .errAddr } ∧ (next { with_ [quiet] with cur := .req .errAddr }).cur = .none)
    ∧ (Inv (waiting [.put 0] [answer false]) ∧ (next (waiting [.put 0] [answer false])).cur = .req .errIo) :=
  ⟨⟨inv_with _, rfl⟩, ⟨inv_with _, rfl⟩, ⟨inv_answering _ _, rfl⟩, ⟨inv_waiting _, rfl⟩⟩

/-- ResponseIsAOneStepEventWithTheHeldCode, EarlierCodesHaveNoInfluence, StrapsAndParametersAreConstant: a step that answers. -/
theorem test_witness_response : let s : State := { with_ [quiet] with cur := .req .errAddr }
    step s = .next (next s) ∧ s.pins.reset = false ∧ (next s).rspValid = true ∧ (next s).rspCode = .errAddr :=
  ⟨rfl, rfl, rfl, rfl⟩

/-- RegistersChangeOnlyByResetOrSet, SetAppliesItsUpdateInOneStep. -/
theorem test_witness_set : let s := running [.set (.blSet false)] [quiet]
    step s = .next (next s) ∧ s.pins.reset = false ∧ s.fsm = .ready ∧ s.seq = .set (.blSet false) :: []
      ∧ registers (next s) ≠ registers s :=
  ⟨rfl, rfl, rfl, rfl, fun h => absurd (congrArg (fun r => r.2.2.2.1) h) (by decide)⟩

/-- PutIssuesOneWriteWithTheCurrentBacklight; the write is 0x38 to 0x4E (40_nibble_framer.md R87). -/
theorem test_witness_put : let s := running [.put 0x30] [quiet]
    s.pins.reset = false ∧ s.fsm = .ready ∧ s.seq = .put 0x30 :: [] ∧ s.txp = false ∧ (0x30 : Byte).getLsbD s.params.bitBl = false
      ∧ txPort (next s) = some ⟨0x4E, 0x38⟩ := by decide

/-- AnsweredWriteRemovesItsPut, UnansweredWriteLeavesTheBlockStuck, FailedWriteEndsTheRequestWithErrIo: the three answers. -/
theorem test_witness_answers : let s (p : Pins) := waiting [.put 0, .wait 1] [p, quiet]
    (s (answer true)).fsm = .ready ∧ (s (answer true)).seq = .put 0 :: [.wait 1] ∧ (s (answer true)).txp = true ∧ (s (answer true)).pins = answer true
    ∧ (s quiet).pins = quiet ∧ (s (answer false)).pins = answer false ∧ (s (answer false)).cur = .req .ok
    ∧ (next (s (answer false))).pins.reset = false := by
  refine ⟨?_, ?_, ?_, ?_, ?_, ?_, ?_, ?_⟩ <;> rfl

/-- InitializationFailureIsTerminalUntilReset: the failing step, and a request in FAILED. -/
theorem test_witness_init_failure : let s : State := { booting [.put 0] [answer false, ask 0x10000000] with txp := true }
    s.pins = answer false ∧ s.fsm = .initializing ∧ s.cur = .init ∧ s.seq = .put 0 :: [] ∧ s.txp = true
    ∧ (next s).fsm = .failed ∧ (next s).pins.reset = false ∧ (next s).pins.reqValid = true := by
  refine ⟨?_, ?_, ?_, ?_, ?_, ?_, ?_, ?_⟩ <;> rfl

/-- WaitEndsNoEarlierThanItsMinimum: 39 of 40 µs, and 40. -/
theorem test_witness_wait : (next (running [.wait 40] [later 39])).seq = [.wait 40] ∧ (next (running [.wait 40] [later 40])).seq = []
    ∧ (running [.wait 40] [later 40]).pins.reset = false ∧ (running [.wait 40] [later 39]).pins.reset = false
    ∧ (running [.wait 40] [later 40]).fsm = .ready := by decide

/-- PayloadBitsAreTheSignals, EnableRisesOnlyInsideWholePulses: the default positions, and others. -/
theorem test_witness_positions : Params.default.Distinct ∧ ({ Params.default with bitEn := 3, bitBl := 2 } : Params).Distinct := by
  decide

/-- CommandBytesAreThoseOfTheTable, RequestsWriteOnlyTheirRegisters, RequestCostsAreThoseOfTheTable. -/
theorem test_witness_exec : Inv (with_ []) ∧ (exec .displayOn (with_ []) = .next (dcSetMode dcD (with_ [])))
    ∧ (dcSetMode dcD (with_ [])).cur = .req .ok
    ∧ exec (.locate 16 1) (with_ []) = .next (raiseError .errAddr (with_ []))
    ∧ (with_ []).params = { Params.default with clsHome := (with_ []).params.clsHome } :=
  ⟨inv_with _, rfl, rfl, rfl, rfl⟩

/-- DisplayControlModesComplete, EntryModesComplete, OneFlagChangesAlone, ScrollModesComplete, BacklightModesComplete: a member
of each list, and a next state. -/
theorem test_witness_modes : (Instr.displayOff, (0x0C : Byte) &&& 0xFB) ∈ [(Instr.displayOn, (0x0C : Byte) ||| 0x04),
      (.displayOff, (0x0C : Byte) &&& 0xFB)]
    ∧ (Instr.autoscrollOff, (0x06 : Byte) &&& 0xFE) ∈ [(Instr.autoscrollOn, (0x06 : Byte) ||| 0x01),
      (.autoscrollOff, (0x06 : Byte) &&& 0xFE)]
    ∧ (Instr.blinkOff, 0, false) ∈ [(Instr.blinkOn, 0, true), (.blinkOff, 0, false)]
    ∧ exec .blinkOff (with_ []) = .next (dcClrMode dcB (with_ []))
    ∧ exec .autoscrollOff (with_ []) = .next (emClrMode emS (with_ []))
    ∧ (Instr.scrollRight, (0x1C : Byte)) ∈ [(Instr.scrollLeft, 0x18), (.scrollRight, 0x1C)]
    ∧ (Instr.backlightOff, false) ∈ [(Instr.backlightOn, true), (.backlightOff, false)] := by
  refine ⟨?_, ?_, ?_, rfl, rfl, ?_, ?_⟩ <;> simp

/-- LocateMovesTheCursorOrIsErrAddr, CharacterWritesAtItsPositionOrIsErrAddr: the last cell of the panel, and one past it. -/
theorem test_witness_positions_of_the_panel : ((15 : Byte).toNat < columns .g16x2 ∧ (1 : Byte).toNat < rows .g16x2)
    ∧ ¬ ((16 : Byte).toNat < columns .g16x2 ∧ (1 : Byte).toNat < rows .g16x2)
    ∧ ¬ ((15 : Byte).toNat < columns .g16x2 ∧ (2 : Byte).toNat < rows .g16x2) := by decide

/-- CreateUploadsOrIsANoOp: slots 7 and 8. -/
theorem test_witness_slots : (7 : Byte).toNat ≤ 7 ∧ 7 < (8 : Byte).toNat := by decide

/-- PutcWritesAtTheCursorAndAdvances, PutcNewlineMovesToTheNextRow, AdvancesWalkTheScreenAndWrap: the last cell. -/
theorem test_witness_cursor : (0x5A : Byte) ≠ 0x0A ∧ CursorInRange (at_ .g20x4 19 3) := by decide

/-- AddressFollowsTheFormulaOnEveryInput: rows 3 and 4. -/
theorem test_witness_rows : Geometry.g40x2 ≠ Geometry.g20x4 ∧ (3 : Byte).toNat < 4 ∧ 4 ≤ (4 : Byte).toNat := by decide

/-- InRangeAddressesAreBasePlusColumn, DistinctCellsHaveDistinctAddresses: the last cell. -/
theorem test_witness_inrange : inrange .g20x4 19 3 = true ∧ (address .g20x4 19 3).1 = (address .g20x4 19 3).1 := by decide

/-- StepKeepsInvariant. -/
theorem test_witness_step_inv : Inv (running [.put 0] [quiet]) ∧ step (running [.put 0] [quiet]) = .next (next (running [.put 0] [quiet])) :=
  ⟨inv_running _, rfl⟩

/-- RequestRunsExactlyItsExpansion: a write that waits one step for its answer, of a request and of initialization. -/
theorem test_witness_run : let ps := [quiet, quiet, answer true, quiet]
    (Inv (running [.put 0] ps) ∧ (running [.put 0] ps).txp = false ∧ (running [.put 0] ps).cur = .req .ok
      ∧ (∀ j, j ≤ 3 → (after j (running [.put 0] ps)).cur = .req .ok) ∧ (after 3 (running [.put 0] ps)).seq = []
      ∧ (after 3 (running [.put 0] ps)).pins.reset = false)
    ∧ (Inv (booting [.put 0] ps) ∧ (booting [.put 0] ps).txp = false ∧ (booting [.put 0] ps).cur = .init
      ∧ (∀ j, j ≤ 3 → (after j (booting [.put 0] ps)).cur = .init) ∧ (after 3 (booting [.put 0] ps)).seq = []
      ∧ (after 3 (booting [.put 0] ps)).pins.reset = false) :=
  ⟨⟨inv_running _, rfl, rfl, fun j hj => by interval_cases j <;> rfl, rfl, rfl⟩,
    ⟨inv_booting _, rfl, rfl, fun j hj => by interval_cases j <;> rfl, rfl, rfl⟩⟩

/-- FailedRequestIsCutAtOnePut, of a request and of initialization. -/
theorem test_witness_failed_run : let ps := [quiet, answer false]
    (Inv (running [.put 0] ps) ∧ (running [.put 0] ps).txp = false ∧ (running [.put 0] ps).cur = .req .ok
      ∧ (∀ j, j ≤ 1 → (after j (running [.put 0] ps)).cur = .req .ok) ∧ (after (1 + 1) (running [.put 0] ps)).cur = .req .errIo)
    ∧ (Inv (booting [.put 0] ps) ∧ (booting [.put 0] ps).txp = false ∧ (booting [.put 0] ps).cur = .init
      ∧ (∀ j, j ≤ 1 → (after j (booting [.put 0] ps)).cur = .init) ∧ (after (1 + 1) (booting [.put 0] ps)).fsm = .failed) :=
  ⟨⟨inv_running _, rfl, rfl, fun j hj => by interval_cases j <;> rfl, rfl⟩,
    ⟨inv_booting _, rfl, rfl, fun j hj => by interval_cases j <;> rfl, rfl⟩⟩

/-- The prompt environment of the default parameters. -/
theorem prompt_prompt : Prompt Params.default prompt := ⟨rfl, rfl, rfl, by decide⟩

/-- PromptRequestIsAnswered. -/
theorem test_witness_prompt_request : let s := with_ (List.replicate 4 prompt)
    let t := backlightMode false s
    s.fsm = .ready ∧ s.txp = false ∧ exec .backlightOff s = .next t ∧ stepsOf t.seq + 1 ≤ t.script.length
      ∧ ∀ p ∈ t.script.take (stepsOf t.seq + 1), Prompt t.params p :=
  ⟨rfl, rfl, rfl, by decide, fun _ h => List.eq_of_mem_replicate (List.mem_of_mem_take h) ▸ prompt_prompt⟩

/-- 60 nibble writes in 20 nibbles, and the backlight write: 61 writes of two steps, 65 waits and 7 updates. -/
theorem init_steps : stepsOf (initSeq Params.default) ≤ 194 := by
  unfold initSeq
  simp only [stepsOf_append, stepsOf_nibble, stepsOf_frame, blWrite, stepsOf]
  decide

/-- PromptInitializationReachesReady. -/
theorem test_witness_prompt_init : let s : State := { State.reset with script := List.replicate 196 prompt }
    Inv s ∧ s.fsm = .uninit ∧ stepsOf (initSeq s.params) + 2 ≤ s.script.length
      ∧ ∀ p ∈ s.script.take (stepsOf (initSeq s.params) + 2), Prompt s.params p := by
  refine ⟨inv_uninit _, rfl, ?_, fun p h => ?_⟩
  · show stepsOf (initSeq Params.default) + 2 ≤ (List.replicate 196 prompt).length
    rw [List.length_replicate]
    exact Nat.add_le_add_right init_steps 2
  · rw [List.eq_of_mem_replicate (List.mem_of_mem_take h)]
    exact prompt_prompt

end Sys2Proof.Tests
end

section
/-!
PROOFS. What one step writes: the frames of the shared operations, the cases of one micro-op, and what every step leaves as it
was. The statements about single steps are settled from these.
-/

namespace Sys2Proof.Machine

/-! The registers under the operations that write none of them. -/

@[simp] theorem registers_advance (s : State) : registers (advance s) = registers s := rfl
@[simp] theorem registers_popSeq (rest : List MicroOp) (s : State) : registers (popSeq rest s) = registers s := rfl
@[simp] theorem registers_finishInit (s : State) : registers (finishInit s) = registers s := rfl
@[simp] theorem registers_respond (code : Code) (s : State) : registers (respond code s) = registers s := rfl

/-- A write of the control state leaves the registers, the parameters and `RSP_VALID` as they were. -/
structure SameButControl (s t : State) : Prop where
  registers : registers t = registers s
  params    : t.params = s.params
  rspValid  : t.rspValid = s.rspValid

theorem abortOwner_sameButControl (s : State) : SameButControl s (abortOwner s) := by
  obtain ⟨_, h⟩ | ⟨_, _, h⟩ | ⟨_, h⟩ := abortOwner_cases s <;> rw [h] <;> exact ⟨rfl, rfl, rfl⟩

theorem execPut_sameButControl (pins : Pins) (rest : List MicroOp) (s : State) :
    SameButControl s (execPut pins rest s) := by
  obtain ⟨_, h⟩ | ⟨_, _, h⟩ | ⟨_, _, _, h⟩ | ⟨_, _, _, h⟩ := execPut_cases pins rest s <;> rw [h]
  case inr.inr.inr => exact abortOwner_sameButControl s
  all_goals exact ⟨rfl, rfl, rfl⟩

theorem execWait_sameButControl (pins : Pins) (t : Nat) (rest : List MicroOp) (s : State) :
    SameButControl s (execWait pins t rest s) := by
  obtain ⟨_, h⟩ | ⟨_, h⟩ := execWait_cases pins t rest s <;> rw [h] <;> exact ⟨rfl, rfl, rfl⟩

theorem settle_sameButControl (pins : Pins) (s : State) : SameButControl s (settle pins s) := by
  obtain ⟨_, h⟩ | ⟨_, h⟩ := settle_cases pins s <;> rw [h] <;> exact ⟨rfl, rfl, rfl⟩

/-- A micro-op writes the control state only, unless it is a `SET`, which applies its update and pops. -/
theorem execMicroOp_frame (pins : Pins) (op : MicroOp) (rest : List MicroOp) (s : State) :
    SameButControl s (execMicroOp pins op rest s)
    ∨ ∃ u, op = .set u ∧ execMicroOp pins op rest s = popSeq rest (applyUpdate u s) := by
  cases op with
  | put q => exact .inl (execPut_sameButControl pins rest s)
  | wait t => exact .inl (execWait_sameButControl pins t rest s)
  | set u => exact .inr ⟨u, rfl, rfl⟩

/-- A micro-op keeps its owner and `STATE`, unless it is a `PUT` whose write fails. -/
theorem execMicroOp_owner (pins : Pins) (op : MicroOp) (rest : List MicroOp) (s : State) :
    ((execMicroOp pins op rest s).fsm = s.fsm ∧ (execMicroOp pins op rest s).cur = s.cur)
    ∨ ((∃ q, op = .put q) ∧ s.txp = true ∧ pins.txDone = true ∧ pins.txOk = false
        ∧ execMicroOp pins op rest s = abortOwner s) := by
  cases op with
  | put q =>
    obtain ⟨_, h⟩ | ⟨_, _, h⟩ | ⟨_, _, _, h⟩ | ⟨ht, hd, ho, h⟩ := execPut_cases pins rest s
    case inr.inr.inr => exact .inr ⟨⟨q, rfl⟩, ht, hd, ho, h⟩
    all_goals exact .inl (by simp [execMicroOp, h])
  | wait t => obtain ⟨_, h⟩ | ⟨_, h⟩ := execWait_cases pins t rest s <;> exact .inl (by simp [execMicroOp, h])
  | set u => exact .inl (by simp [execMicroOp])

/-- What running a legal request writes (10_state.md R38): `SEQ` and `CUR`, with the code `OK` or, over an empty list,
`ERR_ADDR`. -/
theorem exec_writes (i : Instr) (s : State) :
    ∃ ops c, exec i s = .next { s with seq := ops, cur := .req c } ∧ (c = .ok ∨ (c = .errAddr ∧ ops = [])) := by
  obtain ⟨ops, h⟩ | h := exec_cases i s
  · exact ⟨ops, .ok, h, .inl rfl⟩
  · exact ⟨[], .errAddr, h, .inr ⟨rfl, rfl⟩⟩

/-- What accepting any word writes: `SEQ` and `CUR`, with an empty list under an error code, which is never `ERR_IO`. -/
theorem accept_writes (pins : Pins) (s : State) :
    ∃ ops c, accept pins s = .next { s with seq := ops, cur := .req c } ∧ (c = .ok ∨ (c ≠ .errIo ∧ ops = [])) := by
  obtain ⟨i, _, h⟩ | ⟨_, _, h⟩ := accept_cases pins s
  · obtain ⟨ops, c, he, hc⟩ := exec_writes i s
    exact ⟨ops, c, h.trans he, hc.imp_right fun ⟨hc, hops⟩ => ⟨by simp [hc], hops⟩⟩
  · exact ⟨[], .errIllegal, h, .inr ⟨by simp, rfl⟩⟩

/-- The case of the step in which nothing is pending and no request is taken. -/
theorem step_idle (s : State) (hr : s.pins.reset = false) (hf : s.fsm = .initializing ∨ s.fsm = .ready)
    (hs : s.seq = []) (hc : s.cur = .none) (hi : s.pins.reqValid = true → s.fsm = .initializing) :
    step s = .next (advance s) := by
  cases hv : s.pins.reqValid
  · rcases hf with hf | hf <;> simp [step, hr, hf, hs, hc, hv]
  · simp [step, hr, hi hv, hs, hc, reqReady]

/-- The eight cases of 10_state.md R38 by name, each with its guard and the state it leaves. -/
inductive StepTo (s : State) : State → Prop
  | reset (hr : s.pins.reset = true) : StepTo s (resetBlock s.pins (advance s))
  | settle (hr : s.pins.reset = false) (hf : s.fsm = .uninit) : StepTo s (settle s.pins (advance s))
  | failed (hr : s.pins.reset = false) (hf : s.fsm = .failed) : StepTo s (advance s)
  | microOp (op : MicroOp) (rest : List MicroOp) (hr : s.pins.reset = false)
      (hf : s.fsm = .initializing ∨ s.fsm = .ready) (hs : s.seq = op :: rest) :
      StepTo s (execMicroOp s.pins op rest (advance s))
  | initDone (hr : s.pins.reset = false) (hf : s.fsm = .initializing ∨ s.fsm = .ready) (hs : s.seq = [])
      (hc : s.cur = .init) : StepTo s (finishInit (advance s))
  | respond (code : Code) (hr : s.pins.reset = false) (hf : s.fsm = .initializing ∨ s.fsm = .ready) (hs : s.seq = [])
      (hc : s.cur = .req code) : StepTo s (respond code (advance s))
  | accept (ops : List MicroOp) (c : Code) (hr : s.pins.reset = false) (hq : reqReady s = true)
      (hv : s.pins.reqValid = true) (ha : accept s.pins (advance s) = .next { advance s with seq := ops, cur := .req c })
      (hc : c = .ok ∨ (c ≠ .errIo ∧ ops = [])) : StepTo s { advance s with seq := ops, cur := .req c }
  | idle (hr : s.pins.reset = false) (hf : s.fsm = .initializing ∨ s.fsm = .ready) (hs : s.seq = [])
      (hc : s.cur = .none) (hi : s.pins.reqValid = true → s.fsm = .initializing) : StepTo s (advance s)

/-- What a step can do: everything later is derived from these cases. -/
theorem stepTo_of_step {s t : State} (h : step s = .next t) : StepTo s t := by
  obtain ⟨hr, he⟩ | ⟨hr, hf, he⟩ | ⟨hr, hf, he⟩ | ⟨hr, hf, op, rest, hs, he⟩ | ⟨hr, hf, hs, hc, he⟩
    | ⟨hr, hf, hs, code, hc, he⟩ | ⟨hr, hq, hv, he⟩ | ⟨hr, hf, hs, hc, hi, he⟩ := step_cases s <;> rw [he] at h
  case inr.inr.inr.inr.inr.inr.inl =>
    obtain ⟨ops, c, ha, hc⟩ := accept_writes s.pins (advance s)
    rw [ha] at h; cases h
    exact .accept ops c hr hq hv ha hc
  all_goals cases h
  · exact .reset hr
  · exact .settle hr hf
  · exact .failed hr hf
  · exact .microOp op rest hr hf hs
  · exact .initDone hr hf hs hc
  · exact .respond code hr hf hs hc
  · exact .idle hr hf hs hc hi

/-! ### Single steps -/

/-- Settles O7: in a ready block the step is the acceptance, and the acceptance of a legal word its meaning. -/
theorem stepRunsTheDecodedRequest : Obligations.StepRunsTheDecodedRequest := by
  intro s i hq hr hv hd
  rw [step_accept s hr hq hv, accept, hd]

/-- Settles O8: the placed request is on the port of a ready block, which the step accepts. -/
theorem placedRequestIsRunNext : Obligations.PlacedRequestIsRunNext := by
  intro s nbits w i h
  have hd : decode (requestPins nbits w).reqWord (requestPins nbits w).reqGlyph = .ok i := by
    simp only [decodeTableWord] at h
    split at h
    · next hd => cases h; exact hd
    · cases h
  exact stepRunsTheDecodedRequest (s.withFetchWord nbits w) i (by simp [State.withFetchWord]) rfl rfl hd

/-- Settles O12, value by value. -/
theorem resetStateHoldsTheResetValues : Obligations.ResetStateHoldsTheResetValues :=
  ⟨rfl, rfl, rfl, rfl, rfl, rfl, rfl, rfl, rfl, rfl, rfl, rfl, rfl, rfl, rfl⟩

/-- Settles O26: the step is the update and the pop, and what the update writes reads the registers alone. -/
theorem setAppliesItsUpdateInOneStep : Obligations.SetAppliesItsUpdateInOneStep := by
  intro s u ops hr hf hs
  refine ⟨popSeq ops (applyUpdate u (advance s)), step_microOp s _ ops hr hf hs, rfl, by simp, by simp, by simp, ?_⟩
  have hreg : registers (popSeq ops (applyUpdate u (advance s))) = registers (applyUpdate u s) :=
    registers_applyUpdate u _ _ rfl
  rw [hreg]
  refine ⟨?_, ?_, ?_, ?_, ?_, ?_, ?_, ?_, ?_, ?_⟩ <;> intros <;> subst u <;> rfl

/-- Settles O32: what exec_writes says, with the list and the code read off the next state. -/
theorem acceptanceWritesTheSequencerOnly : Obligations.AcceptanceWritesTheSequencerOnly := by
  intro i s
  obtain ⟨ops, c, h, hc⟩ := exec_writes i s
  exact ⟨_, h, rfl, by simpa using hc⟩

/-- Settles O59: the four codes of `STATE`, then the two bits, then the numbers of the codes. -/
theorem statusOutputsFollowTheState : Obligations.StatusOutputsFollowTheState := by
  refine ⟨fun s => ?_, rfl⟩
  cases hf : s.fsm <;> simp [statusState, statusBusy, statusInitFail, hf]

/-- Settles O10: the request pins are read by the acceptance alone, which an unready block never reaches. -/
theorem requestPinsAreIgnoredUnlessReady : Obligations.RequestPinsAreIgnoredUnlessReady := by
  intro s p rest valid word glyph hq
  have hq' (ps : List Pins) : reqReady { s with script := ps } = false := hq
  simp only [step, pins_cons, hq', Bool.and_false]
  rfl

/-- Settles O16: of the cases of the step, the response alone raises `RSP_VALID`. -/
theorem responseIsAOneStepEventWithTheHeldCode : Obligations.ResponseIsAOneStepEventWithTheHeldCode := by
  intro s t h
  cases stepTo_of_step h with
  | reset hr => simp [hr]
  | settle hr hf => simp [hf, (settle_sameButControl s.pins (advance s)).rspValid]
  | failed hr hf => simp [hf]
  | microOp op rest hr hf hs =>
    have hv : (execMicroOp s.pins op rest (advance s)).rspValid = false := by
      obtain hk | ⟨u, _, hk⟩ := execMicroOp_frame s.pins op rest (advance s)
      · exact hk.rspValid
      · simp [hk]
    simp [hs, hv]
  | initDone hr hf hs hc => simp [hc]
  | respond code hr hf hs hc => simp [hr, hf, hs, hc]
  | accept ops c hr hq hv ha hc =>
    obtain ⟨_, _, hnone⟩ := (reqReady_iff s).1 hq
    simp [hnone]
  | idle hr hf hs hc hi => simp [hc]

/-- The straps, the parameters and the registers a step writes: all from a reset, those of an update from a `SET` at the head,
and otherwise none. -/
theorem step_registers (s t : State) (h : step s = .next t) :
    t.params = s.params ∧ (s.pins.reset = true ∨ registers t = registers s
      ∨ ∃ u ops, s.seq = .set u :: ops ∧ registers t = registers (applyUpdate u s)) := by
  cases stepTo_of_step h with
  | reset hr => exact ⟨rfl, .inl hr⟩
  | settle hr hf =>
    have hk := settle_sameButControl s.pins (advance s)
    exact ⟨hk.params, .inr (.inl hk.registers)⟩
  | microOp op rest hr hf hs =>
    obtain hk | ⟨u, rfl, hk⟩ := execMicroOp_frame s.pins op rest (advance s)
    · exact ⟨hk.params, .inr (.inl hk.registers)⟩
    · rw [hk]
      exact ⟨by simp, .inr (.inr ⟨u, rest, hs, registers_applyUpdate u _ _ rfl⟩)⟩
  | failed | initDone | respond | accept | idle => exact ⟨rfl, .inr (.inl rfl)⟩

/-- Settles O18: no update writes a strap, and only a reset writes more than an update. -/
theorem strapsAndParametersAreConstant : Obligations.StrapsAndParametersAreConstant := by
  intro s t h
  obtain ⟨hp, hw⟩ := step_registers s t h
  refine ⟨hp, fun hr => ?_⟩
  obtain hw | hw | ⟨u, _, _, hw⟩ := hw
  · simp [hr] at hw
  all_goals simp [registers] at hw; simp [hw]

/-- Settles O19: of the three cases of step_registers, the one that is no reset and no mere keeping. -/
theorem registersChangeOnlyByResetOrSet : Obligations.RegistersChangeOnlyByResetOrSet := by
  intro s t h hr hne
  obtain hw | hw | hw := (step_registers s t h).2
  · simp [hr] at hw
  · exact absurd hw hne
  · exact hw

/-! The code on the port: an operation commutes with a change of `RSP_CODE`, unless it overwrites the code. -/

/-- `s` with another code on `RSP_CODE`. -/
def State.withRspCode (s : State) (c : Code) : State := { s with rspCode := c }

theorem settle_withRspCode (pins : Pins) (s : State) (c : Code) :
    settle pins (s.withRspCode c) = (settle pins s).withRspCode c := by
  obtain ⟨h, he⟩ | ⟨h, he⟩ := settle_cases pins s <;> rw [he]
  · exact if_pos h
  · exact if_neg (Nat.not_le_of_lt h)

theorem execWait_withRspCode (pins : Pins) (t : Nat) (rest : List MicroOp) (s : State) (c : Code) :
    execWait pins t rest (s.withRspCode c) = (execWait pins t rest s).withRspCode c := by
  obtain ⟨h, he⟩ | ⟨h, he⟩ := execWait_cases pins t rest s <;> rw [he]
  · exact if_pos h
  · exact if_neg (Nat.not_le_of_lt h)

theorem abortOwner_withRspCode (s : State) (c : Code) : abortOwner (s.withRspCode c) = (abortOwner s).withRspCode c := by
  cases hc : s.cur <;> simp [abortOwner, State.withRspCode, hc, raiseError]

theorem execPut_withRspCode (pins : Pins) (rest : List MicroOp) (s : State) (c : Code) :
    execPut pins rest (s.withRspCode c) = (execPut pins rest s).withRspCode c := by
  simp only [execPut, abortOwner_withRspCode]
  cases ht : s.txp <;> cases pins.txDone <;> cases pins.txOk <;> simp [State.withRspCode, ht, popSeq]

theorem execMicroOp_withRspCode (pins : Pins) (op : MicroOp) (rest : List MicroOp) (s : State) (c : Code) :
    execMicroOp pins op rest (s.withRspCode c) = (execMicroOp pins op rest s).withRspCode c := by
  cases op with
  | put q => exact execPut_withRspCode pins rest s c
  | wait t => exact execWait_withRspCode pins t rest s c
  | set u => cases u <;> rfl

theorem exec_withRspCode (i : Instr) (s t : State) (c : Code) (h : exec i s = .next t) :
    exec i (s.withRspCode c) = .next (t.withRspCode c) := by
  cases i
  case locate | character | create | putc =>
    simp only [exec, execLocate, execCharacter, execCreate, execPutc] at h
    split at h <;> rename_i hc <;> cases h
    · exact if_pos hc
    · exact if_neg hc
  all_goals cases h; rfl

theorem accept_withRspCode (pins : Pins) (s t : State) (c : Code) (h : accept pins s = .next t) :
    accept pins (s.withRspCode c) = .next (t.withRspCode c) := by
  obtain ⟨i, hd, ha⟩ | ⟨_, hd, ha⟩ := accept_cases pins s <;> rw [ha] at h <;> rw [accept, hd]
  · exact exec_withRspCode i s t c h
  · cases h; rfl

/-- A step that neither resets nor answers carries the code along, whatever it is. -/
theorem step_withRspCode_of_silent (s t : State) (c : Code) (h : step s = .next t) (hr : s.pins.reset = false)
    (hv : t.rspValid = false) : step (s.withRspCode c) = .next (t.withRspCode c) := by
  cases stepTo_of_step h with
  | reset hr' => simp [hr] at hr'
  | settle _ hf =>
    rw [step_uninit (s.withRspCode c) hr hf]
    exact congrArg _ (settle_withRspCode s.pins (advance s) c)
  | failed _ hf => exact step_failed (s.withRspCode c) hr hf
  | microOp op rest _ hf hs =>
    rw [step_microOp (s.withRspCode c) op rest hr hf hs]
    exact congrArg _ (execMicroOp_withRspCode s.pins op rest (advance s) c)
  | initDone _ hf hs hc => exact step_initDone (s.withRspCode c) hr hf hs hc
  | respond => cases hv
  | accept ops code _ hq hp ha _ =>
    rw [step_accept (s.withRspCode c) hr hq hp]
    exact accept_withRspCode s.pins (advance s) _ c ha
  | idle _ hf hs hc hi => exact step_idle (s.withRspCode c) hr hf hs hc hi

/-- Settles O17: a reset and an answer overwrite the code, and every other step carries it along. -/
theorem earlierCodesHaveNoInfluence : Obligations.EarlierCodesHaveNoInfluence := by
  intro s t c h
  change step (s.withRspCode c) = .next (t.withRspCode _)
  cases hr : s.pins.reset with
  | true =>
    rw [step_reset s hr] at h; cases h
    exact (step_reset (s.withRspCode c) hr).trans (by simp; rfl)
  | false =>
    cases hv : t.rspValid with
    | false => simpa using step_withRspCode_of_silent s t c h hr hv
    | true =>
      obtain ⟨_, hf, hs, code, hc⟩ := (responseIsAOneStepEventWithTheHeldCode s t h).1.1 hv
      rw [step_respond s code hr hf hs hc] at h; cases h
      exact (step_respond (s.withRspCode c) code hr hf hs hc).trans (by simp; rfl)

end Sys2Proof.Machine
end

section
/-!
PROOFS. The invariant of the block. First what the micro-ops of a list keep (OpSafe) and how long they wait, for every list
that a request or the initialization loads; then one lemma per operation of the step, and the step from these.
-/

namespace Sys2Proof.Machine

/-! ### Bits of an image and of a payload -/

/-- A mask that is disjoint from `k` writes no bit of `k`. -/
theorem orFlag_and_of_disjoint (image m k : Byte) (h : m &&& k = 0) : orFlag image m &&& k = image &&& k := by
  rw [orFlag, BitVec.and_or_distrib_right, h]; simp

theorem clrFlag_and_of_disjoint (image m k : Byte) (h : m &&& k = 0) : clrFlag image m &&& k = image &&& k := by
  refine BitVec.eq_of_getLsbD_eq fun i hi => ?_
  have hbit : (m.getLsbD i && k.getLsbD i) = false := by
    rw [← BitVec.getLsbD_and, h]; simp
  cases hm : m.getLsbD i <;> simp_all [clrFlag]

theorem getLsbD_signalBit (pos : Fin 4) (level : Bool) (k : Nat) :
    (signalBit pos level).getLsbD k = (decide (k = pos) && level) := by
  have hpos := pos.isLt
  obtain h | h | h := Nat.lt_trichotomy k pos
  · simp [signalBit, h, Nat.ne_of_lt h]
  · simp [signalBit, h]; omega
  · simp [signalBit, Nat.ne_of_gt h]; omega

/-! ### The micro-ops of a list -/

/-- What every micro-op that the block loads is: safe for the invariant, and no longer than the longest wait. -/
structure Lawful (p : Params) (g : Geometry) (op : MicroOp) : Prop where
  safe   : p.Distinct → OpSafe p g op
  timely : ∀ t, op = .wait t → t ≤ longestWait p

theorem lawful_set (p : Params) (g : Geometry) (u : Update) (h : OpSafe p g (.set u)) : Lawful p g (.set u) :=
  ⟨fun _ => h, fun _ ht => by cases ht⟩

theorem lawful_wait (p : Params) (g : Geometry) (t : Nat) (h : t ≤ longestWait p) : Lawful p g (.wait t) :=
  ⟨fun _ => trivial, fun _ ht => by cases ht; exact h⟩

/-- A payload with its signals at the positions of RS and EN only is 0 at those of RW and BL. -/
theorem lawful_put_signals (p : Params) (g : Geometry) (n : Byte) (rs en : Bool) (hn : ∀ k < 4, n.getLsbD k = false) :
    Lawful p g (.put (n ||| signalBit p.bitRs rs ||| signalBit p.bitEn en)) := by
  refine ⟨fun hp => ?_, fun _ ht => by cases ht⟩
  simp only [Params.Distinct, List.nodup_cons, List.mem_cons, not_or, ← Fin.val_inj] at hp
  obtain ⟨⟨hrsRw, _, hrsBl, _⟩, ⟨hrwEn, _⟩, ⟨henBl, _⟩, _⟩ := hp
  constructor
  · simp [getLsbD_signalBit, hn _ p.bitRw.isLt, Ne.symm hrsRw, hrwEn]
  · simp [getLsbD_signalBit, hn _ p.bitBl.isLt, Ne.symm hrsBl, Ne.symm henBl]

theorem signalBit_false (pos : Fin 4) : signalBit pos false = 0 := by simp [signalBit]

theorem lawful_blWrite (p : Params) (g : Geometry) : ∀ op ∈ blWrite, Lawful p g op := by
  simpa [blWrite, signalBit_false] using lawful_put_signals p g 0 false false (by simp)

theorem lawful_nibble (p : Params) (g : Geometry) (n : Byte) (rs : RegSel) (hn : ∀ k < 4, n.getLsbD k = false) :
    ∀ op ∈ nibble p n rs, Lawful p g op := by
  have hlow : Lawful p g (.put (n ||| signalBit p.bitRs rs.level)) := by
    simpa [signalBit_false] using lawful_put_signals p g n rs.level false hn
  have hwait (t : Nat) (h : t = p.tSetup ∨ t = p.tPulse ∨ t = p.tExec) : Lawful p g (.wait t) :=
    lawful_wait p g t (by unfold longestWait; omega)
  simp only [nibble, List.forall_mem_cons]
  exact ⟨hlow, hwait _ (by simp), lawful_put_signals p g n rs.level true hn, hwait _ (by simp), hlow, hwait _ (by simp),
    by simp⟩

theorem lawful_frame (p : Params) (g : Geometry) (v : Byte) (rs : RegSel) : ∀ op ∈ frame p v rs, Lawful p g op := by
  have hlow (b : Byte) (k : Nat) (hk : k < 4) : (b &&& 0xF0).getLsbD k = false := by interval_cases k <;> simp
  exact List.forall_mem_append.2 ⟨lawful_nibble p g _ rs (hlow v), lawful_nibble p g _ rs (hlow (v <<< 4))⟩

theorem lawful_longWait (p : Params) (g : Geometry) : Lawful p g (.wait p.tLong) :=
  lawful_wait p g _ (by unfold longestWait; omega)

theorem lawful_homeCommand (p : Params) (g : Geometry) : ∀ op ∈ homeCommand p, Lawful p g op := by
  simpa only [homeCommand, List.forall_mem_append, List.forall_mem_singleton] using
    ⟨lawful_frame p g 0x02 .cmd, lawful_longWait p g⟩

theorem lawful_glyphFrames (p : Params) (g : Geometry) (glyph : Glyph) : ∀ op ∈ glyphFrames p glyph, Lawful p g op := by
  intro op h
  obtain ⟨k, _, hk⟩ := List.mem_flatMap.1 h
  exact lawful_frame p g _ .data op hk

theorem lawful_initSeq (p : Params) (g : Geometry) : ∀ op ∈ initSeq p, Lawful p g op := by
  have h30 := lawful_nibble p g 0x30 .cmd (by decide)
  have h20 := lawful_nibble p g 0x20 .cmd (by decide)
  have hwait (t : Nat) (h : t = p.tInit1 ∨ t = p.tInit2 ∨ t = p.tInit3) : Lawful p g (.wait t) :=
    lawful_wait p g t (by unfold longestWait; omega)
  have hset (u : Update) (hu : OpSafe p g (.set u)) := lawful_set p g u hu
  have hframe (v : Byte) := lawful_frame p g v .cmd
  have hlong := lawful_longWait p g
  unfold initSeq
  simp only [List.forall_mem_append, List.forall_mem_singleton, and_assoc]
  exact ⟨List.forall_mem_cons.2 ⟨hset _ trivial, List.forall_mem_singleton.2 (hset _ trivial)⟩,
    h30, hwait _ (by simp), h30, hwait _ (by simp), h30, hwait _ (by simp), h20,
    hframe _, hframe _, hset (.dcOr dcD) rfl, hframe _, hset (.dcClr dcC) rfl, hframe _, hset (.dcClr dcB) rfl, hframe _,
    hframe _, hlong, hframe _, hframe _, hlong, hset _ trivial, hset _ trivial, lawful_blWrite p g⟩

/-- Every list that a request loads is of lawful micro-ops. -/
theorem lawful_exec (i : Instr) (s t : State) (h : exec i s = .next t) :
    ∀ op ∈ t.seq, Lawful s.params s.geom op := by
  have hset (u : Update) (hu : OpSafe s.params s.geom (.set u)) := lawful_set s.params s.geom u hu
  have hframe (v : Byte) (rs : RegSel) := lawful_frame s.params s.geom v rs
  have hmode (u : Update) (v : Byte) (hu : OpSafe s.params s.geom (.set u)) :
      ∀ op ∈ MicroOp.set u :: frame s.params v .cmd, Lawful s.params s.geom op :=
    List.forall_mem_cons.2 ⟨hset u hu, hframe v .cmd⟩
  have hlight (b : Bool) : ∀ op ∈ MicroOp.set (.blSet b) :: blWrite, Lawful s.params s.geom op :=
    List.forall_mem_cons.2 ⟨hset _ trivial, lawful_blWrite _ _⟩
  have hhome := lawful_homeCommand s.params s.geom
  cases i with
  | cls =>
    cases h
    simp only [loadSeq_seq, List.forall_mem_append, List.forall_mem_singleton]
    refine ⟨⟨⟨hframe _ _, lawful_longWait _ _⟩, ?_⟩, hset _ trivial⟩
    split
    · exact hhome
    · exact List.forall_mem_nil _
  | home =>
    cases h
    exact List.forall_mem_append.2 ⟨hhome, List.forall_mem_singleton.2 (hset _ trivial)⟩
  | locate c r =>
    simp only [exec, execLocate] at h
    split at h <;> cases h
    · next hin =>
      simp only [inrange, Bool.and_eq_true, decide_eq_true_eq] at hin
      refine List.forall_mem_singleton.2 (hset (.curTo _ _) ⟨?_, ?_⟩)
      · exact Nat.lt_of_le_of_lt (BitVec.toNat_setWidth 6 c ▸ Nat.mod_le ..) hin.1
      · exact Nat.lt_of_le_of_lt (BitVec.toNat_setWidth 2 r ▸ Nat.mod_le ..) hin.2
    · exact List.forall_mem_nil _
  | character c r v =>
    simp only [exec, execCharacter] at h
    split at h <;> cases h
    · exact List.forall_mem_append.2 ⟨hframe _ _, hframe _ _⟩
    · exact List.forall_mem_nil _
  | create slot glyph =>
    simp only [exec, execCreate] at h
    split at h <;> cases h
    · exact List.forall_mem_nil _
    · exact List.forall_mem_append.2 ⟨hframe _ _, lawful_glyphFrames _ _ _⟩
  | putc ch =>
    simp only [exec, execPutc] at h
    split at h <;> cases h
    · exact List.forall_mem_singleton.2 (hset _ trivial)
    · exact List.forall_mem_append.2 ⟨List.forall_mem_append.2 ⟨hframe _ _, hframe _ _⟩,
        List.forall_mem_singleton.2 (hset _ trivial)⟩
  | scrollLeft | scrollRight => cases h; exact hframe _ _
  | backlightOn | backlightOff => cases h; exact hlight _
  | displayOn | displayOff | cursorOn | cursorOff | blinkOn | blinkOff | leftToRight | rightToLeft | autoscrollOn
  | autoscrollOff => cases h; exact hmode _ _ rfl

/-! ### The cursor -/

theorem columns_pos (g : Geometry) : 0 < columns g := by cases g <;> decide

theorem rows_pos (g : Geometry) : 0 < rows g := by cases g <;> decide

theorem nextRow_lt (g : Geometry) (r : BitVec 2) (h : r.toNat < rows g) : (nextRow g r).toNat < rows g := by
  have := rows_pos g
  unfold nextRow
  split
  · simpa
  · rw [BitVec.toNat_add]
    exact Nat.lt_of_le_of_lt (Nat.mod_le ..) (by simp; omega)

theorem nextCol_lt (g : Geometry) (c : BitVec 6) (h : c.toNat < columns g) (hlast : atLastColumn g c = false) :
    (c + 1).toNat < columns g := by
  simp only [atLastColumn, decide_eq_false_iff_not] at hlast
  rw [BitVec.toNat_add]
  exact Nat.lt_of_le_of_lt (Nat.mod_le ..) (by simp; omega)

/-- 43_stream.md R142: every update of a list keeps the cursor on the panel. -/
theorem cursorInRange_applyUpdate (u : Update) (s : State) (hu : OpSafe s.params s.geom (.set u)) (h : CursorInRange s) :
    CursorInRange (applyUpdate u s) := by
  obtain ⟨hcol, hrow⟩ := h
  cases u with
  | curTo c r => exact hu
  | curHome => exact ⟨columns_pos _, rows_pos _⟩
  | curNl => exact ⟨columns_pos _, nextRow_lt _ _ hrow⟩
  | curAdv =>
    cases hlast : atLastColumn s.geom s.col with
    | true => simpa [CursorInRange, hlast] using ⟨columns_pos _, nextRow_lt _ _ hrow⟩
    | false => simpa [CursorInRange, hlast] using ⟨nextCol_lt _ _ hcol hlast, hrow⟩
  | dcOr | dcClr | emOr | emClr | loadImgs | blSet => exact ⟨hcol, hrow⟩

/-! ### The invariant under each operation of the step -/

theorem inv_resetBlock (pins : Pins) (s : State) (h : s.params.Distinct) : Inv (resetBlock pins s) where
  positions := h
  functionSet := rfl
  displayCtl := by simp
  entryMode := by simp
  cursor := ⟨columns_pos _, rows_pos _⟩
  pending _ hop := by cases hop
  uninitIdle _ := ⟨rfl, rfl⟩
  failedIdle hf := by cases hf
  initOwner := by simp
  reqOwner _ hc := by cases hc
  owned _ := rfl
  heldError _ hc := by cases hc
  outstanding ht := by cases ht
  timerRuns h0 := by cases h0

theorem inv_advance {s : State} (h : Inv s) : Inv (advance s) := { h with }

/-- While nothing is pending, no write is outstanding. -/
theorem Inv.txp_of_seq_nil {s : State} (h : Inv s) (hs : s.seq = []) : s.txp = false := by
  cases ht : s.txp
  · rfl
  · obtain ⟨q, ops, hq⟩ := h.outstanding ht
    simp [hs] at hq

/-- The timer stands at 0 outside UNINIT, unless a wait is at the head. -/
theorem Inv.timer_eq_zero {s : State} (h : Inv s) (hf : s.fsm ≠ .uninit) (hs : ∀ t ops, s.seq ≠ .wait t :: ops) :
    s.timer = 0 := by
  by_contra h0
  obtain hu | ⟨t, ops, ht, _⟩ := h.timerRuns (Nat.pos_of_ne_zero h0)
  · exact hf hu
  · exact hs t ops ht

/-- Something is pending only for an owner that holds no error. -/
theorem Inv.owner_of_seq_cons {s : State} (h : Inv s) {op : MicroOp} {rest : List MicroOp} (hs : s.seq = op :: rest) :
    (s.fsm = .initializing ∧ s.cur = .init) ∨ (s.fsm = .ready ∧ s.cur = .req .ok) := by
  cases hc : s.cur with
  | none => simp [h.owned hc] at hs
  | init => exact .inl ⟨h.initOwner.2 hc, rfl⟩
  | req c =>
    by_cases hok : c = .ok
    · exact .inr ⟨h.reqOwner c hc, by rw [hok]⟩
    · simp [h.heldError c hc hok] at hs

theorem inv_settle {s : State} (pins : Pins) (h : Inv s) (hf : s.fsm = .uninit) : Inv (settle pins s) := by
  obtain ⟨hs, hc⟩ := h.uninitIdle hf
  have htxp := h.txp_of_seq_nil hs
  obtain ⟨_, he⟩ | ⟨_, he⟩ := settle_cases pins s <;> rw [he]
  · exact { h with
      pending := fun op hop => (lawful_initSeq s.params s.geom op hop).safe h.positions
      uninitIdle := by simp
      failedIdle := by simp
      initOwner := by simp
      reqOwner := by simp
      owned := by simp
      heldError := by simp
      outstanding := by simp [htxp]
      timerRuns := by simp }
  · exact { h with timerRuns := fun _ => .inl hf }

/-- The head is done, and no write is outstanding. -/
theorem inv_popSeq {s : State} (h : Inv s) {op : MicroOp} {rest : List MicroOp} (hs : s.seq = op :: rest)
    (ht : s.txp = false) : Inv (popSeq rest s) := by
  have hpending : ∀ o ∈ rest, OpSafe s.params s.geom o := fun o ho => h.pending o (hs ▸ List.mem_cons_of_mem _ ho)
  obtain ⟨hf, hc⟩ | ⟨hf, hc⟩ := h.owner_of_seq_cons hs
  all_goals exact { h with
    pending := hpending
    uninitIdle := by simp [hf]
    failedIdle := by simp [hf]
    owned := by simp [hc]
    heldError := by simp [hc]
    outstanding := by simp [ht]
    timerRuns := by simp }

theorem Inv.clearTxp {s : State} (h : Inv s) : Inv { s with txp := false } := { h with outstanding := by simp }

theorem inv_applyUpdate {s : State} (h : Inv s) (u : Update) (hu : OpSafe s.params s.geom (.set u)) :
    Inv (applyUpdate u s) := by
  have hcursor := cursorInRange_applyUpdate u s hu h.cursor
  have himages : (applyUpdate u s).fsImg = 0x28 ∧ (applyUpdate u s).dcImg &&& 0xF8 = 0x08
      ∧ (applyUpdate u s).emImg &&& 0xFC = 0x04 := by
    cases u with
    | dcOr m => exact ⟨h.functionSet, (orFlag_and_of_disjoint _ m _ hu).trans h.displayCtl, h.entryMode⟩
    | dcClr m => exact ⟨h.functionSet, (clrFlag_and_of_disjoint _ m _ hu).trans h.displayCtl, h.entryMode⟩
    | emOr m => exact ⟨h.functionSet, h.displayCtl, (orFlag_and_of_disjoint _ m _ hu).trans h.entryMode⟩
    | emClr m => exact ⟨h.functionSet, h.displayCtl, (clrFlag_and_of_disjoint _ m _ hu).trans h.entryMode⟩
    | loadImgs => simp [fsPowerOn, dcPowerOn, emPowerOn]
    | blSet | curHome | curTo | curAdv | curNl => exact ⟨h.functionSet, h.displayCtl, h.entryMode⟩
  obtain ⟨hfs, hdc, hem⟩ := himages
  exact ⟨by simpa using h.positions, hfs, hdc, hem, hcursor, by simpa using h.pending, by simpa using h.uninitIdle,
    by simpa using h.failedIdle, by simpa using h.initOwner, by simpa using h.reqOwner, by simpa using h.owned,
    by simpa using h.heldError, by simpa using h.outstanding, by simpa using h.timerRuns⟩

/-- A list is dropped at a `PUT`: its owner turns to `ERR_IO` in READY, or the block goes to FAILED. -/
theorem Inv.cut {s : State} (h : Inv s) {q : Byte} {rest : List MicroOp} (hs : s.seq = .put q :: rest)
    (f : Fsm) (o : Owner) (hfo : (f = .failed ∧ o = .none) ∨ (f = .ready ∧ o = .req .errIo)) :
    Inv { s with fsm := f, seq := [], cur := o, txp := false } := by
  have hf : s.fsm ≠ .uninit := fun hf => by simp [(h.uninitIdle hf).1] at hs
  have htimer : s.timer = 0 := h.timer_eq_zero hf (by simp [hs])
  obtain ⟨rfl, rfl⟩ | ⟨rfl, rfl⟩ := hfo
  all_goals exact { h with
    pending := by simp
    uninitIdle := by simp
    failedIdle := by simp
    initOwner := by simp
    reqOwner := by simp
    owned := by simp
    heldError := by simp
    outstanding := by simp
    timerRuns := by simp [htimer] }

theorem inv_abortOwner {s : State} (h : Inv s) {q : Byte} {rest : List MicroOp} (hs : s.seq = .put q :: rest) :
    Inv (abortOwner s) := by
  obtain ⟨_, hc⟩ | ⟨hf, hc⟩ := h.owner_of_seq_cons hs
  · simpa [abortOwner, hc] using h.cut hs .failed .none (.inl ⟨rfl, rfl⟩)
  · simpa [abortOwner, hc, raiseError, hf] using h.cut hs .ready (.req .errIo) (.inr ⟨rfl, rfl⟩)

theorem inv_execPut {s : State} (pins : Pins) (h : Inv s) {q : Byte} {rest : List MicroOp} (hs : s.seq = .put q :: rest) :
    Inv (execPut pins rest s) := by
  obtain ⟨_, he⟩ | ⟨_, _, he⟩ | ⟨_, _, _, he⟩ | ⟨_, _, _, he⟩ := execPut_cases pins rest s <;> rw [he]
  · exact { h with outstanding := fun _ => ⟨q, rest, hs⟩ }
  · exact h
  · exact inv_popSeq h.clearTxp hs rfl
  · exact inv_abortOwner h hs

theorem inv_execMicroOp {s : State} (pins : Pins) (h : Inv s) {op : MicroOp} {rest : List MicroOp}
    (hs : s.seq = op :: rest) : Inv (execMicroOp pins op rest s) := by
  have htxp (hput : ∀ q, op ≠ .put q) : s.txp = false := by
    cases ht : s.txp
    · rfl
    · obtain ⟨q, ops, hq⟩ := h.outstanding ht
      rw [hs] at hq; cases hq
      exact absurd rfl (hput q)
  cases op with
  | put q => exact inv_execPut pins h hs
  | wait t =>
    obtain ⟨_, he⟩ | ⟨hlt, he⟩ := execWait_cases pins t rest s <;> rw [execMicroOp, he]
    · exact inv_popSeq h hs (htxp (by simp))
    · exact { h with timerRuns := fun _ => .inr ⟨t, rest, hs, hlt⟩ }
  | set u =>
    have hu : OpSafe s.params s.geom (.set u) := h.pending _ (by simp [hs])
    exact inv_popSeq (op := .set u) (inv_applyUpdate h u hu) (by simpa using hs) (by simpa using htxp (by simp))

/-- The owner of an empty list is done, and the block goes on in READY without one. -/
theorem Inv.release {s : State} (h : Inv s) (hs : s.seq = []) (hc : s.cur ≠ .none) :
    Inv { s with fsm := .ready, cur := .none } := by
  have hf : s.fsm ≠ .uninit := fun hf => hc (h.uninitIdle hf).2
  exact { h with
    uninitIdle := by simp
    failedIdle := by simp
    initOwner := by simp
    reqOwner := by simp
    owned := fun _ => hs
    heldError := by simp
    timerRuns := by simp [h.timer_eq_zero hf (by simp [hs])] }

/-- A ready block takes a list under the code `OK`, or no list under an error. -/
theorem Inv.load {s : State} (h : Inv s) (hq : reqReady s = true) (ops : List MicroOp) (c : Code)
    (hops : ∀ op ∈ ops, OpSafe s.params s.geom op) (hc : c = .ok ∨ ops = []) :
    Inv { s with seq := ops, cur := .req c } := by
  obtain ⟨hf, hs, _⟩ := (reqReady_iff s).1 hq
  exact { h with
    pending := hops
    uninitIdle := by simp [hf]
    failedIdle := by simp [hf]
    initOwner := by simp [hf]
    reqOwner := fun _ _ => hf
    owned := by simp
    heldError := fun _ hc' hne => hc.resolve_left (by cases hc'; exact hne)
    outstanding := by simp [h.txp_of_seq_nil hs]
    timerRuns := by simp [h.timer_eq_zero (by simp [hf]) (by simp [hs])] }

theorem inv_accept {s t : State} (pins : Pins) (h : Inv s) (hq : reqReady s = true) (he : accept pins s = .next t) :
    Inv t := by
  obtain ⟨i, _, ha⟩ | ⟨_, _, ha⟩ := accept_cases pins s <;> rw [ha] at he
  · obtain ⟨ops, c, hx, hc⟩ := exec_writes i s
    have hops := lawful_exec i s _ hx
    rw [hx] at he; cases he
    exact h.load hq ops c (fun op hop => (hops op hop).safe h.positions) (hc.imp_right And.right)
  · cases he
    exact h.load hq [] .errIllegal (by simp) (.inr rfl)

/-! ### The statements -/

/-- Settles O54: the case of the step is one of those above. -/
theorem stepKeepsInvariant : Obligations.StepKeepsInvariant := by
  intro s t h hst
  have ha := inv_advance h
  cases stepTo_of_step hst with
  | reset hr => exact inv_resetBlock s.pins _ h.positions
  | settle hr hf => exact inv_settle s.pins ha hf
  | microOp op rest hr hf hs => exact inv_execMicroOp s.pins ha hs
  | initDone hr hf hs hc => exact ha.release hs (by simp [hc])
  | respond code hr hf hs hc =>
    have hrespond := ha.release hs (by simp [hc])
    rw [← h.reqOwner code hc] at hrespond
    exact { hrespond with }
  | accept ops c hr hq hv hacc hc => exact inv_accept s.pins ha hq hacc
  | failed | idle => exact ha

/-- Settles O53: the state after reset is what a reset step with these straps leaves. -/
theorem invariantHoldsAtReset : Obligations.InvariantHoldsAtReset :=
  inv_resetBlock { (default : Pins) with geomIn := 0, addr7In := 0x27 } State.reset (by decide)

/-- Settles O14: a micro-op changes `STATE` only where a write of the initialization fails. -/
theorem fsmTransitionsAreThoseOfTheSpec : Obligations.FsmTransitionsAreThoseOfTheSpec := by
  intro s t h hst hne
  cases stepTo_of_step hst with
  | reset hr => exact .inl ⟨hr, rfl⟩
  | settle hr hf =>
    obtain ⟨ht, hk⟩ | ⟨_, hk⟩ := settle_cases s.pins (advance s) <;> rw [hk] at hne ⊢
    · exact .inr (.inl ⟨hr, hf, rfl, ht, rfl⟩)
    · exact absurd rfl hne
  | microOp op rest hr _ hs =>
    obtain ⟨hk, _⟩ | ⟨⟨q, rfl⟩, htxp, hd, ho, hk⟩ := execMicroOp_owner s.pins op rest (advance s)
    · exact absurd hk.symm hne
    · obtain ⟨hf, hc⟩ | ⟨hf, hc⟩ := h.owner_of_seq_cons hs
      · have hfail : (abortOwner (advance s)).fsm = .failed := by simp [abortOwner, hc]
        exact .inr (.inr (.inr ⟨hr, hf, by rw [hk, hfail], htxp, hd, ho, q, rest, hs⟩))
      · exact absurd (by simp [hk, abortOwner, hc]) hne
  | initDone hr _ hs hc => exact .inr (.inr (.inl ⟨hr, h.initOwner.2 hc, rfl, hs, hc⟩))
  | failed | respond | accept | idle => exact absurd rfl hne

/-- Settles O15: a micro-op changes `CUR` only where a write fails. -/
theorem ownerChangesAreThoseOfTheSpec : Obligations.OwnerChangesAreThoseOfTheSpec := by
  intro s t h hst hr hne
  cases stepTo_of_step hst with
  | reset hr' => simp [hr] at hr'
  | settle _ hf =>
    obtain ⟨_, hk⟩ | ⟨_, hk⟩ := settle_cases s.pins (advance s) <;> rw [hk] at hne ⊢
    · exact .inl ⟨(h.uninitIdle hf).2, hf, rfl⟩
    · exact absurd rfl hne
  | microOp op rest _ _ hs =>
    obtain ⟨_, hk⟩ | ⟨_, htxp, hd, ho, hk⟩ := execMicroOp_owner s.pins op rest (advance s)
    · exact absurd hk.symm hne
    · rw [hk]
      obtain ⟨_, hc⟩ | ⟨_, hc⟩ := h.owner_of_seq_cons hs
      · exact .inr (.inl (by simp [abortOwner, hc]))
      · exact .inr (.inr (.inr (.inr ⟨hc, by simp [abortOwner, hc], by simp [abortOwner, hc], htxp, hd, ho⟩)))
  | initDone _ _ _ hc => exact .inr (.inl ⟨hc, rfl, rfl⟩)
  | respond code _ _ hs hc => exact .inr (.inr (.inr (.inl ⟨hs, rfl, rfl, hc⟩)))
  | accept ops c _ hq hv _ hc =>
    refine .inr (.inr (.inl ⟨hq, hv, ?_⟩))
    exact hc.imp (congrArg Owner.req) fun ⟨hne, hops⟩ => ⟨hops, c, rfl, hne⟩
  | failed | idle => exact absurd rfl hne

end Sys2Proof.Machine
end

section
/-!
PROOFS. Runs in a prompt environment (Prompt of Safety.lean), where nothing waits: the block runs through its list in the
list's own number of steps, one micro-op after another.
-/

namespace Sys2Proof.Machine

/-! ### Runs and lists through append -/

theorem responses_add (m n : Nat) (s : State) : responses (m + n) s = responses m s ++ responses n (after m s) := by
  induction m generalizing s with
  | zero => simp [responses]
  | succ m ih => rw [Nat.succ_add, responses, responses, after_succ, ih, List.append_assoc]

theorem next_eq_of_step {s t : State} (h : step s = .next t) : next s = t := by simp [next, h]

theorem bl_eq_of_registers_eq {s t : State} (h : registers s = registers t) : s.bl = t.bl :=
  congrArg (fun r => r.2.2.2.1) h

theorem addr7_eq_of_registers_eq {s t : State} (h : registers s = registers t) : s.addr7 = t.addr7 :=
  congrArg (fun r => r.2.2.2.2.2.2.2) h

theorem applySets_bl (ops : List MicroOp) (s : State) : (applySets ops s).bl = blAfter s.bl ops := by
  induction ops generalizing s with
  | nil => rfl
  | cons op ops ih =>
    cases op with
    | put q => exact ih s
    | wait t => exact ih s
    | set u => cases u <;> simp [applySets, blAfter, ih]

/-! ### The environment -/

/-- The script names the pins of the next `n` steps, and they are those of a prompt environment. -/
structure PromptFor (n : Nat) (s : State) : Prop where
  named  : n ≤ s.script.length
  prompt : ∀ p ∈ s.script.take n, Prompt s.params p

theorem PromptFor.pins {n : Nat} {s : State} (h : PromptFor (n + 1) s) : Prompt s.params s.pins := by
  obtain ⟨hlen, hp⟩ := h
  cases hs : s.script with
  | nil => simp [hs] at hlen
  | cons p ps => exact hp s.pins (by simp [State.pins, hs])

/-- After `m` of the steps the others are still named and prompt. -/
theorem PromptFor.drop {m n : Nat} {s t : State} (h : PromptFor (m + n) s) (hscript : t.script = s.script.drop m)
    (hparams : t.params = s.params) : PromptFor n t := by
  obtain ⟨hlen, hp⟩ := h
  refine ⟨by rw [hscript, List.length_drop]; omega, fun p hmem => hparams ▸ hp p ?_⟩
  rw [hscript, List.take_drop] at hmem
  exact List.mem_of_mem_drop hmem

theorem PromptFor.mono {m n : Nat} {s : State} (h : PromptFor n s) (hmn : m ≤ n) : PromptFor m s :=
  ⟨hmn.trans h.named, fun p hmem => h.prompt p (List.take_subset_take_left _ hmn hmem)⟩

/-! ### A run through a list -/

/-- `s` runs through the front `ops` of its list in the list's own number of steps: `rest` is left, the writes are its bytes,
the registers those of its updates, and no response is emitted. -/
structure RunsThrough (ops rest : List MicroOp) (s : State) : Prop where
  fsm       : (after (stepsOf ops) s).fsm = s.fsm
  cur       : (after (stepsOf ops) s).cur = s.cur
  seq       : (after (stepsOf ops) s).seq = rest
  txp       : (after (stepsOf ops) s).txp = false
  params    : (after (stepsOf ops) s).params = s.params
  script    : (after (stepsOf ops) s).script = s.script.drop (stepsOf ops)
  registers : registers (after (stepsOf ops) s) = registers (applySets ops s)
  trace     : trace (stepsOf ops) s = (bytesOf s.params s.bl ops).map fun b => ⟨addr8 s.addr7, b⟩
  quiet     : responses (stepsOf ops) s = []

theorem RunsThrough.nil {s : State} {rest : List MicroOp} (hs : s.seq = rest) (ht : s.txp = false) : RunsThrough [] rest s :=
  ⟨rfl, rfl, hs, ht, rfl, rfl, rfl, rfl, rfl⟩

theorem RunsThrough.append {ops ops' mid rest : List MicroOp} {s : State} (h : RunsThrough ops mid s)
    (h' : RunsThrough ops' rest (after (stepsOf ops) s)) : RunsThrough (ops ++ ops') rest s := by
  have hregs := registers_applySets ops' _ _ h.registers
  have hbl : (after (stepsOf ops) s).bl = blAfter s.bl ops :=
    (bl_eq_of_registers_eq h.registers).trans (applySets_bl ops s)
  have haddr : (after (stepsOf ops) s).addr7 = s.addr7 := by
    obtain ⟨_, _, _, _, _, haddr, _⟩ := applySets_frame_fields ops s
    exact (addr7_eq_of_registers_eq h.registers).trans haddr
  exact {
    fsm := by rw [stepsOf_append, after_add, h'.fsm, h.fsm]
    cur := by rw [stepsOf_append, after_add, h'.cur, h.cur]
    seq := by rw [stepsOf_append, after_add, h'.seq]
    txp := by rw [stepsOf_append, after_add, h'.txp]
    params := by rw [stepsOf_append, after_add, h'.params, h.params]
    script := by rw [stepsOf_append, after_add, h'.script, h.script, List.drop_drop]
    registers := by rw [stepsOf_append, after_add, h'.registers, hregs, applySets_append]
    trace := by
      rw [stepsOf_append, trace_add, h.trace, h'.trace, h.params, hbl, haddr, bytesOf_append, List.map_append]
    quiet := by rw [stepsOf_append, responses_add, h.quiet, h'.quiet]; rfl }

/-- A `PUT` takes two steps, the issue and the answer. -/
theorem runsThrough_put {s : State} {q : Byte} {rest : List MicroOp} (hf : s.fsm = .initializing ∨ s.fsm = .ready)
    (hs : s.seq = .put q :: rest) (ht : s.txp = false) (hp : PromptFor 2 s) : RunsThrough [.put q] rest s := by
  obtain ⟨hr, _⟩ := hp.pins
  have hissue : next s = { advance s with txp := true } := by
    rw [next_eq_of_step (step_microOp s _ rest hr hf hs)]
    simp [execMicroOp, execPut, ht]
  have hp' : PromptFor 1 (next s) := hp.drop (m := 1) (by simp [hissue]) (by simp [hissue])
  obtain ⟨hr', hd, ho, _⟩ := hp'.pins
  have hanswer : next (next s) = popSeq rest { advance (advance s) with txp := false } := by
    have hstep := step_microOp (next s) (.put q) rest hr' (by simpa [hissue] using hf) (by simpa [hissue] using hs)
    rw [next_eq_of_step hstep, execMicroOp, execPut, hd, ho, hissue]
    rfl
  have hport : txPort s = none := by simp [txPort, ht]
  have hport' : txPort (next s) = some ⟨addr8 s.addr7, txByte s.params s.bl q⟩ := by simp [txPort, hissue, hs]
  have hsilent : (next s).rspValid = false := by simp [hissue]
  constructor <;> simp only [stepsOf, after_succ, after_zero, hanswer]
  case script => simp [← List.drop_one, List.drop_drop]
  case trace => simp [Machine.trace, issues, hport, hport', bytesOf]
  case quiet => simp [responses, hsilent, hanswer]
  all_goals rfl

/-- A step that drops the head, and makes its update where it is a `SET`, runs through a `WAIT` or a `SET`. -/
theorem runsThrough_of_next {s : State} {op : MicroOp} {rest : List MicroOp} (hput : ∀ q, op ≠ .put q)
    (ht : s.txp = false) (h : next s = popSeq rest (applySets [op] (advance s))) : RunsThrough [op] rest s := by
  obtain ⟨hfsm, _, hcur, htxp, _, _, hparams, _⟩ := applySets_frame_fields [op] (advance s)
  have hregs := registers_applySets [op] (advance s) s rfl
  have hsteps : stepsOf [op] = 1 := by cases op <;> simp_all [stepsOf]
  have hbytes : bytesOf s.params s.bl [op] = [] := by
    cases op with
    | put q => exact absurd rfl (hput q)
    | wait t => rfl
    | set u => cases u <;> rfl
  have hmodel : (applySets [op] (advance s)).script = s.script.tail ∧ (applySets [op] (advance s)).rspValid = false := by
    cases op <;> simp [applySets]
  constructor <;> rw [hsteps] <;>
    simp [h, hfsm, hcur, htxp, hparams, hregs, hbytes, hmodel, ht, Machine.trace, issues, txPort, responses]

/-- A `WAIT` takes one step where its time has passed. -/
theorem runsThrough_wait {s : State} {t : Nat} {rest : List MicroOp} (hf : s.fsm = .initializing ∨ s.fsm = .ready)
    (hs : s.seq = .wait t :: rest) (ht : s.txp = false) (hp : PromptFor 1 s) (hle : t ≤ longestWait s.params) :
    RunsThrough [.wait t] rest s := by
  obtain ⟨hr, _, _, htime⟩ := hp.pins
  refine runsThrough_of_next (by simp) ht (next_eq_of_step ?_)
  rw [step_microOp s _ rest hr hf hs]
  exact congrArg _ (if_pos (by rw [advance_timer]; omega))

theorem runsThrough_set {s : State} {u : Update} {rest : List MicroOp} (hf : s.fsm = .initializing ∨ s.fsm = .ready)
    (hs : s.seq = .set u :: rest) (ht : s.txp = false) (hp : PromptFor 1 s) : RunsThrough [.set u] rest s :=
  runsThrough_of_next (by simp) ht (next_eq_of_step (step_microOp s _ rest hp.pins.1 hf hs))

theorem runsThrough_head {s : State} {op : MicroOp} {rest : List MicroOp} (hf : s.fsm = .initializing ∨ s.fsm = .ready)
    (hs : s.seq = op :: rest) (ht : s.txp = false) (hp : PromptFor (stepsOf [op]) s)
    (hle : ∀ t, op = .wait t → t ≤ longestWait s.params) : RunsThrough [op] rest s := by
  cases op with
  | put q => exact runsThrough_put hf hs ht hp
  | wait t => exact runsThrough_wait hf hs ht hp (hle t rfl)
  | set u => exact runsThrough_set hf hs ht hp

/-- In a prompt environment the block runs through any list whose waits are within the longest one. -/
theorem runsThrough_of_prompt (ops : List MicroOp) (s : State) (hf : s.fsm = .initializing ∨ s.fsm = .ready)
    (hs : s.seq = ops) (ht : s.txp = false) (hp : PromptFor (stepsOf ops) s)
    (hle : ∀ t, .wait t ∈ ops → t ≤ longestWait s.params) : RunsThrough ops [] s := by
  induction ops generalizing s with
  | nil => exact .nil hs ht
  | cons op rest ih =>
    rw [← List.singleton_append, stepsOf_append] at hp
    have hhead : RunsThrough [op] rest s :=
      runsThrough_head hf hs ht (hp.mono (Nat.le_add_right ..)) fun t h => hle t (by simp [h])
    have hrest := ih (after (stepsOf [op]) s) (by rwa [hhead.fsm]) hhead.seq hhead.txp
      (hp.drop hhead.script hhead.params) fun t h => by rw [hhead.params]; exact hle t (List.mem_cons_of_mem _ h)
    exact hhead.append hrest

/-! ### The statement -/

/-- Settles O57: the block runs through the request's list, and the step after it answers. -/
theorem promptRequestIsAnswered : Obligations.PromptRequestIsAnswered := by
  intro i s t hf htxp he hlen hprompt
  have hp : PromptFor (stepsOf t.seq + 1) t := ⟨hlen, hprompt⟩
  obtain ⟨hf, htxp, ⟨c, hc⟩, hparams⟩ :
      t.fsm = .ready ∧ t.txp = false ∧ (∃ c, t.cur = .req c) ∧ t.params = s.params := by
    obtain ⟨ops, c, hx, _⟩ := exec_writes i s
    rw [hx] at he; cases he
    exact ⟨hf, htxp, ⟨c, rfl⟩, rfl⟩
  have hrun : RunsThrough t.seq [] t :=
    runsThrough_of_prompt t.seq t (.inr hf) rfl htxp (hp.mono (Nat.le_succ _)) fun d hd =>
      hparams ▸ (lawful_exec i s t he _ hd).timely d rfl
  have hready : (after (stepsOf t.seq) t).fsm = .ready := hrun.fsm.trans hf
  have hanswer : next (after (stepsOf t.seq) t) = respond c (advance (after (stepsOf t.seq) t)) :=
    next_eq_of_step (step_respond _ c (hp.drop hrun.script hrun.params).pins.1 (.inr hready) hrun.seq (hrun.cur.trans hc))
  rw [after_add, trace_add, responses_add, hrun.trace, hrun.quiet]
  simp only [after_succ, after_zero, Machine.trace, issues, responses, hanswer]
  have hsilent : txPort (respond c (advance (after (stepsOf t.seq) t))) = none := by simp [txPort, hrun.txp]
  exact ⟨hrun.registers, by simp [hsilent], rfl, hc, rfl, by simp [hready, hrun.seq]⟩

end Sys2Proof.Machine
end

section
/-!
PROOFS. The flags of the two images, bit by bit (10_state.md R27).
-/

namespace Sys2Proof.Machine

/-- A mask of the single bit `k` sets that bit of an image alone. -/
theorem getLsbD_orFlag (image m : Byte) (k : Nat) (hm : m = BitVec.twoPow 8 k) (hk : k < 8) (j : Nat) :
    (orFlag image m).getLsbD j = if j = k then true else image.getLsbD j := by
  subst hm
  by_cases hj : j = k
  · simp [orFlag, hj, hk]
  · simp [orFlag, BitVec.getLsbD_twoPow, hj, Ne.symm hj]

/-- A mask of the single bit `k` clears that bit of an image alone. -/
theorem getLsbD_clrFlag (image m : Byte) (k : Nat) (hm : m = BitVec.twoPow 8 k) (hk : k < 8) (j : Nat) :
    (clrFlag image m).getLsbD j = if j = k then false else image.getLsbD j := by
  subst hm
  by_cases hj : j = k
  · simp [clrFlag, hj, hk]
  · simpa [clrFlag, BitVec.getLsbD_twoPow, hj, Ne.symm hj] using BitVec.lt_of_getLsbD

/-- Settles O38: the one update of each mode sets or clears its mask, which is a single bit. -/
theorem oneFlagChangesAlone : Obligations.OneFlagChangesAlone := by
  constructor <;> intro i k v hmem s t he <;>
    simp only [List.mem_cons, Prod.mk.injEq, List.not_mem_nil, or_false] at hmem
  · obtain ⟨rfl, rfl, rfl⟩ | ⟨rfl, rfl, rfl⟩ | ⟨rfl, rfl, rfl⟩ | ⟨rfl, rfl, rfl⟩ | ⟨rfl, rfl, rfl⟩ | ⟨rfl, rfl, rfl⟩ :=
      hmem <;> cases he
    · exact ⟨getLsbD_orFlag s.dcImg dcD 2 rfl (by decide), rfl⟩
    · exact ⟨getLsbD_clrFlag s.dcImg dcD 2 rfl (by decide), rfl⟩
    · exact ⟨getLsbD_orFlag s.dcImg dcC 1 rfl (by decide), rfl⟩
    · exact ⟨getLsbD_clrFlag s.dcImg dcC 1 rfl (by decide), rfl⟩
    · exact ⟨getLsbD_orFlag s.dcImg dcB 0 rfl (by decide), rfl⟩
    · exact ⟨getLsbD_clrFlag s.dcImg dcB 0 rfl (by decide), rfl⟩
  · obtain ⟨rfl, rfl, rfl⟩ | ⟨rfl, rfl, rfl⟩ | ⟨rfl, rfl, rfl⟩ | ⟨rfl, rfl, rfl⟩ := hmem <;> cases he
    · exact ⟨getLsbD_orFlag s.emImg emId 1 rfl (by decide), rfl⟩
    · exact ⟨getLsbD_clrFlag s.emImg emId 1 rfl (by decide), rfl⟩
    · exact ⟨getLsbD_orFlag s.emImg emS 0 rfl (by decide), rfl⟩
    · exact ⟨getLsbD_clrFlag s.emImg emS 0 rfl (by decide), rfl⟩

end Sys2Proof.Machine
end

section
/-!
PROOFS. Runs in any environment: while its owner stays, the block completes its list from the front, whatever it is kept
waiting for (20_memory.md R51, R58; 40_nibble_framer.md R82, R91, R92).
-/

namespace Sys2Proof.Machine

/-! ### Steps and runs -/

/-- No step faults or refuses, so that `next` is the state a step answers. -/
theorem step_eq_next (s : State) : step s = .next (next s) := by
  obtain ⟨_, he⟩ | ⟨_, _, he⟩ | ⟨_, _, he⟩ | ⟨_, _, _, _, _, he⟩ | ⟨_, _, _, _, he⟩ | ⟨_, _, _, _, _, he⟩
    | ⟨_, _, _, he⟩ | ⟨_, _, _, _, _, he⟩ := step_cases s
  case inr.inr.inr.inr.inr.inr.inl =>
    obtain ⟨ops, c, ha, _⟩ := accept_writes s.pins (advance s)
    rw [next_eq_of_step (he.trans ha), he, ha]
  all_goals rw [next_eq_of_step he, he]

theorem inv_next {s : State} (h : Inv s) : Inv (next s) := stepKeepsInvariant s _ h (step_eq_next s)

theorem inv_after (k : Nat) {s : State} (h : Inv s) : Inv (after k s) := by
  induction k generalizing s with
  | zero => exact h
  | succ k ih => exact ih (inv_next h)

/-- Settles O22: of what a `PUT` can do, the case of a write that has no answer yet. -/
theorem unansweredWriteLeavesTheBlockStuck : Obligations.UnansweredWriteLeavesTheBlockStuck := by
  intro s q ops hr hf hs ht hd
  rw [step_microOp s _ ops hr hf hs]
  simp [execMicroOp, execPut, ht, hd]

/-! ### The transport port -/

theorem txPort_of_idle {s : State} (ht : s.txp = false) : txPort s = none := by simp [txPort, ht]

theorem txPort_of_outstanding {s : State} {q : Byte} {rest : List MicroOp} (hs : s.seq = .put q :: rest)
    (ht : s.txp = true) : txPort s = some ⟨addr8 s.addr7, txByte s.params s.bl q⟩ := by simp [txPort, hs, ht]

/-- From an idle port a step issues what stands on the port after it. -/
theorem issues_of_idle {s : State} (h : txPort s = none) : issues s = (txPort (next s)).toList := if_pos h

/-- While a write stands on the port, no other is issued. -/
theorem issues_of_outstanding {s : State} {w : TxWrite} (h : txPort s = some w) : issues s = [] := by simp [issues, h]

/-! ### Completing the front of a list -/

/-- The block comes from `s` to `t` by completing the front `done` of its list, issuing `writes`, in `us` µs. A write issued but
not answered stands on the port and belongs to the list that is left: so the port of `s` comes before `writes`, and the port of
`t` after the bytes of `done`. In the same way the timer counts the time a wait of the list that is left has had. -/
structure Completes (done : List MicroOp) (writes : List TxWrite) (us : Nat) (s t : State) : Prop where
  seq       : s.seq = done ++ t.seq
  params    : t.params = s.params
  registers : registers t = registers (applySets done s)
  writes    : (txPort s).toList ++ writes
    = (bytesOf s.params s.bl done).map (fun b => ⟨addr8 s.addr7, b⟩) ++ (txPort t).toList
  waits     : waitsOf done + t.timer ≤ s.timer + us

theorem Completes.refl (s : State) : Completes [] [] 0 s s :=
  ⟨rfl, rfl, rfl, by simp [bytesOf], by simp [waitsOf]⟩

theorem Completes.trans {done done' : List MicroOp} {writes writes' : List TxWrite} {us us' : Nat} {s t u : State}
    (h : Completes done writes us s t) (h' : Completes done' writes' us' t u) :
    Completes (done ++ done') (writes ++ writes') (us + us') s u := by
  have hbl : t.bl = blAfter s.bl done := (bl_eq_of_registers_eq h.registers).trans (applySets_bl done s)
  have haddr : t.addr7 = s.addr7 := by
    obtain ⟨_, _, _, _, _, haddr, _⟩ := applySets_frame_fields done s
    exact (addr7_eq_of_registers_eq h.registers).trans haddr
  exact {
    seq := by rw [h.seq, h'.seq, List.append_assoc]
    params := h'.params.trans h.params
    registers := by rw [h'.registers, registers_applySets done' _ _ h.registers, applySets_append]
    writes := by
      rw [← List.append_assoc, h.writes, List.append_assoc, h'.writes, h.params, hbl, haddr, bytesOf_append, List.map_append,
        List.append_assoc]
    waits := by
      have := h.waits
      have := h'.waits
      rw [waitsOf_append]; omega }

/-- A step that only issues a write, or waits, completes nothing. -/
theorem completes_nil {s : State} (hs : (next s).seq = s.seq) (hp : (next s).params = s.params)
    (hr : registers (next s) = registers s) (ht : (next s).timer ≤ s.timer + s.pins.elapsedUs)
    (hport : txPort s = none ∨ txPort (next s) = txPort s) : Completes [] (issues s) s.pins.elapsedUs s (next s) where
  seq := hs.symm
  params := hp
  registers := hr
  writes := by
    cases hw : txPort s with
    | none => simp [issues_of_idle hw, bytesOf]
    | some w =>
      have hw' : txPort (next s) = some w := by simpa [hw] using hport
      simp [issues_of_outstanding hw, hw', bytesOf]
  waits := by simpa [waitsOf] using ht

/-- A step of a `PUT` that does not fail issues the write, waits for its answer, or takes it. -/
theorem completes_put {s : State} {q : Byte} {rest : List MicroOp} (hs : s.seq = .put q :: rest)
    (hn : next s = execPut s.pins rest (advance s)) (hkeep : next s ≠ abortOwner (advance s)) :
    ∃ done, Completes done (issues s) s.pins.elapsedUs s (next s) := by
  obtain ⟨ht, he⟩ | ⟨_, _, he⟩ | ⟨ht, _, _, he⟩ | ⟨_, _, _, he⟩ := execPut_cases s.pins rest (advance s)
    <;> rw [← hn] at he
  · exact ⟨[], completes_nil (by simp [he]) (by simp [he]) (by rw [he]; rfl) (by simp [he]) (.inl (txPort_of_idle ht))⟩
  · exact ⟨[], completes_nil (by simp [he]) (by simp [he]) (by simp [he]) (by simp [he]) (.inr (by rw [he]; rfl))⟩
  · have hport := txPort_of_outstanding hs ht
    refine ⟨[.put q], by simp [he, hs], by simp [he], by rw [he]; rfl, ?_, by simp [he, waitsOf]⟩
    rw [issues_of_outstanding hport, hport, txPort_of_idle (by simp [he])]; rfl
  · exact absurd he hkeep

/-- A step that drops the head, and makes its update where it is a `SET`, completes a `SET`, or a `WAIT` whose time has passed. -/
theorem completes_pop {s : State} {op : MicroOp} {rest : List MicroOp} (hs : s.seq = op :: rest) (hput : ∀ q, op ≠ .put q)
    (ht : s.txp = false) (hn : next s = popSeq rest (applySets [op] (advance s)))
    (htime : waitsOf [op] ≤ s.timer + s.pins.elapsedUs) : Completes [op] (issues s) s.pins.elapsedUs s (next s) := by
  obtain ⟨_, _, _, htxp, _, _, hparams, _⟩ := applySets_frame_fields [op] (advance s)
  have hidle := txPort_of_idle ht
  have hidle' : txPort (next s) = none := txPort_of_idle (by simp [hn, htxp, ht])
  have hbytes : bytesOf s.params s.bl [op] = [] := by
    cases op with
    | put q => exact absurd rfl (hput q)
    | wait t => rfl
    | set u => cases u <;> rfl
  exact {
    seq := by simp [hn, hs]
    params := by simp [hn, hparams]
    registers := by rw [hn, registers_popSeq, registers_applySets [op] (advance s) s rfl]
    writes := by simp [issues_of_idle hidle, hidle, hidle', hbytes]
    waits := by simpa [hn] using htime }

/-- A step of a `WAIT` ends it, or lets the timer run on. -/
theorem completes_wait {s : State} {t : Nat} {rest : List MicroOp} (hs : s.seq = .wait t :: rest) (ht : s.txp = false)
    (hn : next s = execWait s.pins t rest (advance s)) : ∃ done, Completes done (issues s) s.pins.elapsedUs s (next s) := by
  obtain ⟨hle, he⟩ | ⟨_, he⟩ := execWait_cases s.pins t rest (advance s) <;> rw [← hn] at he
  · exact ⟨_, completes_pop hs (by simp) ht he (by simpa [waitsOf] using hle)⟩
  · exact ⟨[], completes_nil (by simp [he]) (by simp [he]) (by rw [he]; rfl) (by simp [he]) (.inl (txPort_of_idle ht))⟩

/-! ### While the owner stays -/

/-- A failing `PUT` takes the list from its owner. -/
theorem Inv.abortOwner_cur_ne {s : State} (h : Inv s) {op : MicroOp} {rest : List MicroOp} (hs : s.seq = op :: rest) :
    (abortOwner s).cur ≠ s.cur := by
  obtain ⟨_, hc⟩ | ⟨_, hc⟩ := h.owner_of_seq_cons hs <;> simp [abortOwner, hc]

/-- Of the cases of the step, an owner survives the execution of a micro-op alone. -/
theorem Inv.next_of_owner_stays {s : State} (h : Inv s) (hc : s.cur ≠ .none) (hstay : (next s).cur = s.cur) :
    ∃ op rest, s.seq = op :: rest ∧ next s = execMicroOp s.pins op rest (advance s) := by
  have hst := stepTo_of_step (step_eq_next s)
  generalize next s = t at hst hstay ⊢
  cases hst with
  | microOp op rest _ _ hs => exact ⟨op, rest, hs, rfl⟩
  | reset | initDone | respond => exact absurd hstay.symm hc
  | settle _ hf => exact absurd (h.uninitIdle hf).2 hc
  | failed _ hf => exact absurd (h.failedIdle hf).2 hc
  | accept _ _ _ hq => exact absurd ((reqReady_iff s).1 hq).2.2 hc
  | idle _ _ _ hc' => exact absurd hc' hc

/-- While a micro-op other than `PUT` is at the head, no write is outstanding. -/
theorem Inv.txp_of_head {s : State} (h : Inv s) {op : MicroOp} {rest : List MicroOp} (hs : s.seq = op :: rest)
    (hput : ∀ q, op ≠ .put q) : s.txp = false := by
  cases ht : s.txp
  · rfl
  · obtain ⟨q, ops, hq⟩ := h.outstanding ht
    rw [hs] at hq; cases hq
    exact absurd rfl (hput q)

theorem Inv.completes_next {s : State} (h : Inv s) (hc : s.cur ≠ .none) (hstay : (next s).cur = s.cur) :
    ∃ done, Completes done (issues s) s.pins.elapsedUs s (next s) := by
  obtain ⟨op, rest, hs, hn⟩ := h.next_of_owner_stays hc hstay
  cases op with
  | put q => exact completes_put hs hn fun he => (inv_advance h).abortOwner_cur_ne hs (he ▸ hstay)
  | wait t => exact completes_wait hs (h.txp_of_head hs (by simp)) hn
  | set u => exact ⟨_, completes_pop hs (by simp) (h.txp_of_head hs (by simp)) hn (Nat.zero_le _)⟩

/-- For every behaviour of the environment: while its owner stays, the block completes its list from the front. -/
theorem Inv.completes_after {s : State} (h : Inv s) (hc : s.cur ≠ .none) (k : Nat)
    (hstay : ∀ j, j ≤ k → (after j s).cur = s.cur) :
    ∃ done, Completes done (trace k s) (elapsed k s) s (after k s) := by
  induction k generalizing s with
  | zero => exact ⟨[], .refl s⟩
  | succ k ih =>
    have hnext : (next s).cur = s.cur := hstay 1 (Nat.le_add_left ..)
    obtain ⟨done, hhead⟩ := h.completes_next hc hnext
    obtain ⟨done', hrest⟩ := ih (inv_next h) (hnext ▸ hc) fun j hj => (hstay (j + 1) (Nat.succ_le_succ hj)).trans hnext.symm
    exact ⟨done ++ done', hhead.trans hrest⟩

/-- Settles O55: with no write outstanding at either end and nothing left, what is completed is the whole list, and the port
adds nothing to its bytes. -/
theorem requestRunsExactlyItsExpansion : Obligations.RequestRunsExactlyItsExpansion := by
  intro s k h ht hcur hstay hdone
  have hc : s.cur ≠ .none := by rcases hcur with hcur | hcur <;> simp [hcur]
  have hend : (after k s).cur = s.cur := hstay k le_rfl
  have hinv := inv_after k h
  obtain ⟨done, hrun⟩ := h.completes_after hc k hstay
  obtain rfl : s.seq = done := by simpa [hdone] using hrun.seq
  refine ⟨?_, hrun.registers, ?_, fun hr hi => ?_, fun hr hq => ?_⟩
  · simpa [txPort_of_idle ht, txPort_of_idle (hinv.txp_of_seq_nil hdone)] using hrun.writes
  · exact (Nat.le_add_right ..).trans hrun.waits
  · have hi := hend.trans hi
    exact step_initDone _ hr (.inl (hinv.initOwner.2 hi)) hdone hi
  · have hq := hend.trans hq
    exact step_respond _ _ hr (.inr (hinv.reqOwner _ hq)) hdone hq

end Sys2Proof.Machine
end

section
/-!
PROOFS. The decoder: it accepts a word with a glyph operand as an instruction exactly where the word is the instruction's
encoding. Which rows of the opcode table a word matches, and what an illegal word does, follow from this (30_encoding.md R63
to R81).
-/

namespace Sys2Proof

/-! ### The decoder is the inverse of the encoder -/

theorem eq_ofNat_of_toNat_eq {n k : Nat} {v : BitVec n} (h : v.toNat = k) : v = BitVec.ofNat n k := by simp [← h]

/-- A guard of the decoder that accepts holds. -/
theorem and_of_ite_eq_ok {P : Prop} [Decidable P] {x : Except Illegal Instr} {e : Illegal} {i : Instr}
    (h : (if P then x else .error e) = .ok i) : P ∧ x = .ok i := by
  split at h
  · next hP => exact ⟨hP, h⟩
  · cases h

/-- A mode code that is accepted is the mode's own (30_encoding.md R66), and no mode is CREATE. -/
theorem encodeWord_of_decodeMode {c : Byte} {i : Instr} (h : decodeMode c = .ok i) :
    encodeWord i = packWord 4 0 0 c ∧ ∀ slot glyph, i ≠ .create slot glyph := by
  unfold decodeMode at h
  split at h <;> cases h
  all_goals
    next hc => exact eq_ofNat_of_toNat_eq hc ▸ ⟨rfl, nofun⟩

/-- A word that is accepted has `RSV = 0`, so it is made of its opcode and operands, and these are the instruction's. -/
theorem encodeWord_of_decode {w : Word} {g : Glyph} {i : Instr} (h : decode w g = .ok i) :
    encodeWord i = w ∧ ∀ slot glyph, i = .create slot glyph → glyph = g := by
  simp only [decode] at h
  split at h
  · cases h
  split at h
  · cases h
  next hrsv =>
  generalize hop : (opField w).toNat = op at h
  rw [← packWord_fields w (not_not.1 hrsv), eq_ofNat_of_toNat_eq hop]
  split at h -- the rows by opcode: CLS, HOME, LOCATE, DISPLAY, CHARACTER, CREATE, PUTC, and no other
  · obtain ⟨⟨ha, hb, hc⟩, ⟨⟩⟩ := and_of_ite_eq_ok h
    exact ⟨by rw [ha, hb, hc]; rfl, nofun⟩
  · obtain ⟨⟨ha, hb, hc⟩, ⟨⟩⟩ := and_of_ite_eq_ok h
    exact ⟨by rw [ha, hb, hc]; rfl, nofun⟩
  · obtain ⟨hc, ⟨⟩⟩ := and_of_ite_eq_ok h
    exact ⟨by rw [hc]; rfl, nofun⟩
  · obtain ⟨⟨ha, hb⟩, hmode⟩ := and_of_ite_eq_ok h
    obtain ⟨hi, hne⟩ := encodeWord_of_decodeMode hmode
    exact ⟨by rw [ha, hb]; exact hi, fun slot glyph he => absurd he (hne slot glyph)⟩
  · cases h
    exact ⟨rfl, nofun⟩
  · obtain ⟨⟨hb, hc⟩, ⟨⟩⟩ := and_of_ite_eq_ok h
    exact ⟨by rw [hb, hc]; rfl, fun _ _ he => (Instr.create.inj he).2.symm⟩
  · obtain ⟨⟨ha, hb⟩, ⟨⟩⟩ := and_of_ite_eq_ok h
    exact ⟨by rw [ha, hb]; rfl, nofun⟩
  · cases h

/-- The word of an instruction is accepted as it, beside any glyph operand that CREATE would take. -/
theorem decode_encodeWord (i : Instr) (g : Glyph) (hg : ∀ slot glyph, i = .create slot glyph → glyph = g) :
    decode (encodeWord i) g = .ok i := by
  cases i with
  | create slot glyph => obtain rfl := hg slot glyph rfl; simp [encodeWord, decode]
  | locate | character | putc => simp [encodeWord, decode]
  | _ => rfl

theorem decode_encode (i : Instr) : decode (encodeWord i) (encodeGlyph i) = .ok i :=
  decode_encodeWord i _ (by rintro _ _ rfl; rfl)

/-! ### The rows of the opcode table -/

open Laws.RowMatch in
theorem rowMatch_encodeWord (i : Instr) : Statement i := by
  cases i
  exacts [cls, home, locate _ _, displayOn, displayOff, cursorOn, cursorOff, blinkOn, blinkOff, scrollLeft, scrollRight,
    leftToRight, rightToLeft, autoscrollOn, autoscrollOff, backlightOn, backlightOff, character _ _ _, create _ _, putc _]

/-- The row of an instruction (30_encoding.md R65, R81): the mask leaves the operands free, and without operands the row is
the word. -/
def rowOf : Instr → Word × Word
  | .locate _ _ => (0x30000000, 0xFF0000FF)
  | .character _ _ _ => (0x50000000, 0xFF000000)
  | .create _ _ => (0x60000000, 0xFF00FFFF)
  | .putc _ => (0x70000000, 0xFFFFFF00)
  | i => (encodeWord i, 0xFFFFFFFF)

/-- The table is the rows of the instructions, which do not depend on operands. -/
theorem opcodeTable_eq_map_rowOf : opcodeTable =
    [.cls, .home, .locate 0 0, .displayOn, .displayOff, .cursorOn, .cursorOff, .blinkOn, .blinkOff, .scrollLeft,
      .scrollRight, .leftToRight, .rightToLeft, .autoscrollOn, .autoscrollOff, .backlightOn, .backlightOff,
      .character 0 0 0, .create 0 0, .putc 0].map rowOf := rfl

/-- Where the mask of a row holds a field whole, a word that matches the row has the row's field. -/
theorem field_of_matchesRow {w : Word} {row : Word × Word} (h : MatchesRow w row) {start len : Nat}
    (hmask : row.2.extractLsb' start len = BitVec.allOnes len) : w.extractLsb' start len = row.1.extractLsb' start len := by
  rw [← h, BitVec.extractLsb'_and, hmask, BitVec.and_allOnes]

theorem eq_of_matchesRow_allOnes {w m : Word} (h : MatchesRow w (m, 0xFFFFFFFF)) : w = m := BitVec.and_allOnes.symm.trans h

/-- A word that matches the row of an instruction is accepted, as an instruction of that row. -/
theorem exists_decode_of_matchesRow_rowOf {w : Word} (g : Glyph) {i : Instr} (h : MatchesRow w (rowOf i)) :
    ∃ j, decode w g = .ok j ∧ rowOf j = rowOf i := by
  cases i with
  | locate c r =>
    simp only [rowOf] at h
    have hop : opField w = 3 := field_of_matchesRow h rfl
    have hrsv : rsvField w = 0 := field_of_matchesRow h rfl
    have hc : cField w = 0 := field_of_matchesRow h rfl
    exact ⟨.locate (aField w) (bField w), by simp [decode, hop, hrsv, hc], rfl⟩
  | character c r v =>
    simp only [rowOf] at h
    have hop : opField w = 5 := field_of_matchesRow h rfl
    have hrsv : rsvField w = 0 := field_of_matchesRow h rfl
    exact ⟨.character (aField w) (bField w) (cField w), by simp [decode, hop, hrsv], rfl⟩
  | create slot glyph =>
    simp only [rowOf] at h
    have hop : opField w = 6 := field_of_matchesRow h rfl
    have hrsv : rsvField w = 0 := field_of_matchesRow h rfl
    have hb : bField w = 0 := field_of_matchesRow h rfl
    have hc : cField w = 0 := field_of_matchesRow h rfl
    exact ⟨.create (aField w) g, by simp [decode, hop, hrsv, hb, hc], rfl⟩
  | putc ch =>
    simp only [rowOf] at h
    have hop : opField w = 7 := field_of_matchesRow h rfl
    have hrsv : rsvField w = 0 := field_of_matchesRow h rfl
    have ha : aField w = 0 := field_of_matchesRow h rfl
    have hb : bField w = 0 := field_of_matchesRow h rfl
    exact ⟨.putc (cField w), by simp [decode, hop, hrsv, ha, hb], rfl⟩
  | _ =>
    obtain rfl := eq_of_matchesRow_allOnes h
    exact ⟨_, rfl, rfl⟩

/-- A word that matches a row of the table is accepted, as an instruction of that row. -/
theorem exists_decode_of_matchesRow {w : Word} {row : Word × Word} (g : Glyph) (hrow : row ∈ opcodeTable)
    (h : MatchesRow w row) : ∃ i, decode w g = .ok i ∧ rowOf i = row := by
  rw [opcodeTable_eq_map_rowOf] at hrow
  obtain ⟨i, _, rfl⟩ := List.mem_map.1 hrow
  exact exists_decode_of_matchesRow_rowOf g h

/-- An accepted word matches the row of its instruction. -/
theorem matchesRow_of_decode {w : Word} {g : Glyph} {i : Instr} (h : decode w g = .ok i) :
    rowOf i ∈ opcodeTable ∧ MatchesRow w (rowOf i) := by
  obtain ⟨_, row, hrow, hmatch⟩ := rowMatch_encodeWord i
  rw [(encodeWord_of_decode h).1] at hmatch
  obtain ⟨j, hj, rfl⟩ := exists_decode_of_matchesRow g hrow hmatch
  obtain rfl : i = j := Except.ok.inj (h.symm.trans hj)
  exact ⟨hrow, hmatch⟩

/-! ### The illegal words -/

theorem opField_toNat (w : Word) : (opField w).toNat = w.toNat / 2 ^ 28 := by
  have hw := w.isLt
  simp only [opField, BitVec.extractLsb'_toNat, Nat.shiftRight_eq_div_pow]
  omega

/-- Under any part of the mask of a row, a word that matches the row reads as the row. -/
theorem and_of_matchesRow {w m : Word} {row : Word × Word} (h : MatchesRow w row) (hm : row.2 &&& m = m) :
    w &&& m = row.1 &&& m := by
  rw [← h, BitVec.and_assoc, hm]

/-- No accepted word is in the list of 30_encoding.md R75. -/
theorem not_illegalWord_of_decode {w : Word} {g : Glyph} {i : Instr} (h : decode w g = .ok i) :
    ¬ Machine.IllegalWord w := by
  have hrow := (matchesRow_of_decode h).2
  have hop : w.toNat / 2 ^ 28 = (opField (encodeWord i)).toNat := by rw [(encodeWord_of_decode h).1, opField_toNat]
  cases i with
  | locate c r =>
    simp only [rowOf] at hrow
    have hrsv : w &&& 0x0F000000 = 0 := and_of_matchesRow hrow rfl
    have hc : w &&& 0x000000FF = 0 := and_of_matchesRow hrow rfl
    simp only [Machine.IllegalWord, hop, encodeWord, opField_packWord, hrsv, hc]
    simp
  | character c r v =>
    simp only [rowOf] at hrow
    have hrsv : w &&& 0x0F000000 = 0 := and_of_matchesRow hrow rfl
    simp only [Machine.IllegalWord, hop, encodeWord, opField_packWord, hrsv]
    simp
  | create slot glyph =>
    simp only [rowOf] at hrow
    have hrsv : w &&& 0x0F000000 = 0 := and_of_matchesRow hrow rfl
    have hbc : w &&& 0x0000FFFF = 0 := and_of_matchesRow hrow rfl
    simp only [Machine.IllegalWord, hop, encodeWord, opField_packWord, hrsv, hbc]
    simp
  | putc ch =>
    simp only [rowOf] at hrow
    have hrsv : w &&& 0x0F000000 = 0 := and_of_matchesRow hrow rfl
    have hab : w &&& 0x00FFFF00 = 0 := and_of_matchesRow hrow rfl
    simp only [Machine.IllegalWord, hop, encodeWord, opField_packWord, hrsv, hab]
    simp
  | _ =>
    obtain rfl := eq_of_matchesRow_allOnes hrow
    unfold Machine.IllegalWord
    decide

/-- An illegal word is rejected, whichever glyph operand stands beside it. -/
theorem exists_error_of_illegalWord {w : Word} (g : Glyph) (h : Machine.IllegalWord w) : ∃ e, decode w g = .error e := by
  cases hd : decode w g with
  | ok i => exact absurd h (not_illegalWord_of_decode hd)
  | error e => exact ⟨e, rfl⟩

/-! ### The statements -/

/-- Settles O2: the equation of the decoder on an encoded word, at the instruction's own glyph. -/
theorem decodeOfEncodeIsTheInstruction : Obligations.DecodeOfEncodeIsTheInstruction := decode_encode

/-- Settles O3: an accepted word has `RSV = 0`, so its opcode and the operands of its row are the whole of it. -/
theorem legalWordIsTheEncodingOfItsInstruction : Obligations.LegalWordIsTheEncodingOfItsInstruction :=
  fun _ _ _ => encodeWord_of_decode

/-- Settles O4: a word has the row of the one instruction it decodes to. -/
theorem decoderAcceptsExactlyTheTableRows : Obligations.DecoderAcceptsExactlyTheTableRows := by
  refine ⟨rfl, fun w g => ⟨fun ⟨i, h⟩ => ⟨rowOf i, matchesRow_of_decode h⟩, fun ⟨row, hrow, h⟩ => ?_⟩,
    fun w row hrow row' hrow' h h' => ?_⟩
  · obtain ⟨i, hi, _⟩ := exists_decode_of_matchesRow g hrow h
    exact ⟨i, hi⟩
  · obtain ⟨i, hi, rfl⟩ := exists_decode_of_matchesRow 0 hrow h
    obtain ⟨j, hj, rfl⟩ := exists_decode_of_matchesRow 0 hrow' h'
    rw [Except.ok.inj (hi.symm.trans hj)]

/-- Settles O1, word by word. -/
theorem specWordsDecodeAsWritten : Obligations.SpecWordsDecodeAsWritten := by
  unfold Obligations.SpecWordsDecodeAsWritten
  decide

namespace Machine

theorem accept_of_illegalWord {pins : Pins} (s : State) (h : IllegalWord pins.reqWord) :
    accept pins s = .next (raiseError .errIllegal s) := by
  obtain ⟨e, he⟩ := exists_error_of_illegalWord pins.reqGlyph h
  simp [accept, he]

theorem issues_of_next_seq_nil {s : State} (h : (next s).seq = []) : issues s = [] := by simp [issues, txPort, h]

/-- Settles O5: the acceptance raises the error over the list that is empty already, and the next step answers. -/
theorem illegalWordCompletesWithErrIllegal : Obligations.IllegalWordCompletesWithErrIllegal := by
  intro s hq hr hv hill hr'
  obtain ⟨hf, hs, hc⟩ := (reqReady_iff s).1 hq
  have hstep : step s = .next (raiseError .errIllegal (advance s)) := by
    rw [step_accept s hr hq hv, accept_of_illegalWord _ hill]
  have hnext := next_eq_of_step hstep
  rw [hnext] at hr'
  have hstep' := step_respond _ .errIllegal hr' (.inr hf) rfl rfl
  have hissues : issues s = [] := issues_of_next_seq_nil (by simp [hnext])
  have hissues' : issues (next s) = [] := issues_of_next_seq_nil (by simp [hnext, next_eq_of_step hstep'])
  exact ⟨_, _, hstep, by simp [raiseError, hs], hstep', by simp [respond, raiseError, advance, hs, hc],
    by simp [trace, hissues, hissues']⟩

end Machine

end Sys2Proof
end

section
/-!
PROOFS. The assembler (30_encoding.md R79, R80): which lines it refuses, and the words of the others as numbers.
-/

namespace Sys2Proof

/-! ### Words as numbers -/

theorem append_toNat {m n : Nat} (x : BitVec m) (y : BitVec n) : (x ++ y).toNat = x.toNat * 2 ^ n + y.toNat := by
  rw [BitVec.toNat_append, ← Nat.shiftLeft_add_eq_or_of_lt y.isLt, Nat.shiftLeft_eq]

theorem packWord_toNat (op : BitVec 4) (a b c : Byte) :
    (packWord op a b c).toNat = 0x10000000 * op.toNat + 0x10000 * a.toNat + 0x100 * b.toNat + c.toNat := by
  simp only [packWord, append_toNat, BitVec.toNat_ofNat]
  omega

/-- The word of an opcode and three operands in range, as the sum 30_encoding.md R63 gives. -/
theorem packWord_ofNat (op : BitVec 4) {a b c : Nat} (ha : a ≤ 255) (hb : b ≤ 255) (hc : c ≤ 255) :
    packWord op (BitVec.ofNat 8 a) (BitVec.ofNat 8 b) (BitVec.ofNat 8 c)
      = BitVec.ofNat 32 (0x10000000 * op.toNat + 0x10000 * a + 0x100 * b + c) := by
  have hop := op.isLt
  apply BitVec.eq_of_toNat_eq
  simp only [packWord_toNat, BitVec.toNat_ofNat]
  omega

/-! ### The glyph of CREATE -/

theorem packGlyph_eq_ofDigits (bytes : List Nat) : packGlyph bytes = BitVec.ofNat 64 (Nat.ofDigits 256 bytes) := by
  rw [packGlyph, Nat.ofDigits_eq_foldr]; rfl

/-- The digits of a number are what division and remainder read from it. -/
theorem ofDigits_div_pow_mod (ds : List Nat) (hds : ∀ d ∈ ds, d < 256) (k : Nat) (hk : k < ds.length) :
    Nat.ofDigits 256 ds / 256 ^ k % 256 = ds[k] := by
  induction ds generalizing k with
  | nil => simp at hk
  | cons d ds ih =>
    have hd : d < 256 := hds d (by simp)
    rw [Nat.ofDigits_cons]
    cases k with
    | zero => simp; omega
    | succ k =>
      rw [Nat.pow_succ', ← Nat.div_div_eq_div_mul, show (d + 256 * Nat.ofDigits 256 ds) / 256 = Nat.ofDigits 256 ds by omega]
      exact ih (fun x hx => hds x (List.mem_cons_of_mem d hx)) k (Nat.lt_of_succ_lt_succ hk)

/-- Byte `k` of the assembled glyph is the `k`-th of the eight bytes (30_encoding.md R67, R79). -/
theorem glyphByte_packGlyph {bytes : List Nat} (hlen : bytes.length = 8) (hb : ∀ b ∈ bytes, b ≤ 255) (k : Nat)
    (hk : k < bytes.length) : (Machine.glyphByte (packGlyph bytes) k).toNat = bytes[k] := by
  have hb' : ∀ b ∈ bytes, b < 256 := fun b h => Nat.lt_succ_of_le (hb b h)
  have hlt : Nat.ofDigits 256 bytes < 2 ^ 64 := by
    have h := Nat.ofDigits_lt_base_pow_length (by decide) hb'
    rwa [hlen] at h
  rw [Machine.glyphByte, packGlyph_eq_ofDigits, BitVec.extractLsb'_toNat, BitVec.toNat_ofNat, Nat.mod_eq_of_lt hlt,
    Nat.shiftRight_eq_div_pow, Nat.pow_mul]
  exact ofDigits_div_pow_mod bytes hb' k hk

/-! ### Lines -/

theorem operandOk_iff (n : Nat) : operandOk n = true ↔ n ≤ 255 := by simp [operandOk]; omega

/-- What a line assembles to, from its instructions and from what its check asks. -/
theorem assemble_eq_ite {l : AsmLine} {P : Prop} [Decidable P] {is : List Instr} {ws : List (Word × Glyph)}
    (hl : assembleLine l = if l.wellFormed then some is else none) (hwf : l.wellFormed = true ↔ P)
    (hws : P → is.map encode = ws) : assemble l = if P then some ws else none := by
  by_cases hP : P
  · rw [if_pos hP, assemble, hl, if_pos (hwf.2 hP), Option.map_some, hws hP]
  · rw [if_neg hP, assemble, hl, if_neg (mt hwf.1 hP), Option.map_none]

theorem assemble_locate (c r : Nat) : assemble (.locate c r)
    = if c ≤ 255 ∧ r ≤ 255 then some [(BitVec.ofNat 32 (0x30000000 + 0x10000 * c + 0x100 * r), 0)] else none :=
  assemble_eq_ite rfl (by simp [AsmLine.wellFormed, operandOk_iff]) fun ⟨hc, hr⟩ =>
    congrArg (fun w => [(w, 0)]) (packWord_ofNat 3 hc hr (Nat.zero_le 255))

theorem assemble_character (c r v : Nat) : assemble (.character c r v)
    = if c ≤ 255 ∧ r ≤ 255 ∧ v ≤ 255 then some [(BitVec.ofNat 32 (0x50000000 + 0x10000 * c + 0x100 * r + v), 0)]
      else none :=
  assemble_eq_ite rfl (by simp [AsmLine.wellFormed, operandOk_iff, and_assoc]) fun ⟨hc, hr, hv⟩ =>
    congrArg (fun w => [(w, 0)]) (packWord_ofNat 5 hc hr hv)

/-- The request of one character, as PUTC and PUTS assemble it. -/
theorem encode_putc {v : Nat} (hv : v ≤ 255) :
    encode (.putc (BitVec.ofNat 8 v)) = (BitVec.ofNat 32 (0x70000000 + v), 0) :=
  congrArg (fun w => (w, 0)) (packWord_ofNat 7 (Nat.zero_le 255) (Nat.zero_le 255) hv)

theorem assemble_putc (v : Nat) :
    assemble (.putc v) = if v ≤ 255 then some [(BitVec.ofNat 32 (0x70000000 + v), 0)] else none :=
  assemble_eq_ite rfl (operandOk_iff v) fun hv => congrArg (fun x => [x]) (encode_putc hv)

theorem assemble_puts (text : List Nat) : assemble (.puts text)
    = if ∀ v ∈ text, v ≤ 255 then some (text.map fun v => (BitVec.ofNat 32 (0x70000000 + v), 0)) else none :=
  assemble_eq_ite rfl (by simp [AsmLine.wellFormed, operandOk_iff]) fun htext => by
    rw [List.map_map]
    exact List.map_congr_left fun v hv => encode_putc (htext v hv)

theorem assemble_create (slot : Nat) (bytes : List Nat) : assemble (.create slot bytes)
    = if slot ≤ 255 ∧ bytes.length = 8 ∧ ∀ b ∈ bytes, b ≤ 255 then
        some [(BitVec.ofNat 32 (0x60000000 + 0x10000 * slot), packGlyph bytes)] else none :=
  assemble_eq_ite rfl (by simp [AsmLine.wellFormed, operandOk_iff, and_assoc]) fun ⟨hslot, _⟩ =>
    congrArg (fun w => [(w, packGlyph bytes)]) (packWord_ofNat 6 hslot (Nat.zero_le 255) (Nat.zero_le 255))

/-- Whatever is assembled is the encoding of an instruction, which the decoder accepts. -/
theorem exists_decode_of_mem_assemble {l : AsmLine} {ws : List (Word × Glyph)} (h : assemble l = some ws) {x : Word × Glyph}
    (hx : x ∈ ws) : ∃ i, decode x.1 x.2 = .ok i := by
  obtain ⟨is, _, rfl⟩ := Option.map_eq_some_iff.1 h
  obtain ⟨i, _, rfl⟩ := List.mem_map.1 hx
  exact ⟨i, decode_encode i⟩

/-- Settles O6, form by form. -/
theorem assemblerGivesTheSpecWords : Obligations.AssemblerGivesTheSpecWords := by
  refine ⟨rfl, rfl, rfl, assemble_locate, assemble_character, assemble_putc, assemble_puts,
    fun slot bytes hslot hlen hb => ⟨packGlyph bytes, ?_, glyphByte_packGlyph hlen hb⟩, fun slot bytes h => ?_,
    fun l ws h x hx => exists_decode_of_mem_assemble h hx⟩
  · rw [assemble_create, if_pos ⟨hslot, hlen, hb⟩]
  · rw [assemble_create, if_neg]
    rintro ⟨hslot, hlen, hb⟩
    obtain h | h | ⟨b, hmem, h⟩ := h
    · exact absurd hslot (Nat.not_le.2 h)
    · exact h hlen
    · exact absurd (hb b hmem) (Nat.not_le.2 h)

end Sys2Proof
end

section
/-!
PROOFS. The bytes on the wire: the payload of a nibble bit by bit (30_encoding.md R70, R72), the bytes of a framed list, and the
command bytes that requests frame (30_encoding.md R73, R74).
-/

namespace Sys2Proof.Machine

/-! ### The bits of a payload -/

/-- A nibble in the upper half of a byte. -/
theorem getLsbD_append_zero (n : BitVec 4) (k : Nat) :
    (n ++ 0#4 : Byte).getLsbD k = if k < 4 then false else n.getLsbD (k - 4) :=
  BitVec.getLsbD_append.trans (by simp)

/-- A payload position holds the signals of that position only: the nibble lies above them. -/
theorem getLsbD_payload_low (p : Params) (n : BitVec 4) (rs : RegSel) (en bl : Bool) (pos : Fin 4) :
    (payload p n rs en bl).getLsbD pos
      = (decide (pos = p.bitRs) && rs.level || decide (pos = p.bitEn) && en || decide (pos = p.bitBl) && bl) := by
  have hn : (n ++ 0#4 : Byte).getLsbD pos = false := by rw [getLsbD_append_zero, if_pos pos.isLt]
  simp only [payload, BitVec.getLsbD_or, getLsbD_signalBit, hn, Bool.false_or, Fin.val_inj]

theorem getLsbD_payload_high (p : Params) (n : BitVec 4) (rs : RegSel) (en bl : Bool) (k : Nat) :
    (payload p n rs en bl).getLsbD (4 + k) = n.getLsbD k := by
  have hpos (pos : Fin 4) : 4 + k ≠ pos := by omega
  simp [payload, getLsbD_signalBit, hpos, getLsbD_append_zero]

/-- Settles O27: at its own position a signal is read alone, since the positions are distinct. -/
theorem payloadBitsAreTheSignals : Obligations.PayloadBitsAreTheSignals := by
  intro p n rs en bl hp
  simp only [Params.Distinct, List.nodup_cons, List.mem_cons, not_or, List.not_mem_nil] at hp
  obtain ⟨⟨hrsRw, hrsEn, hrsBl, _⟩, ⟨hrwEn, hrwBl, _⟩, ⟨henBl, _⟩, _⟩ := hp
  refine ⟨fun k _ => getLsbD_payload_high p n rs en bl k, ?_, ?_, ?_, ?_⟩
  · simp [getLsbD_payload_low, hrsEn, hrsBl]
  · simp [getLsbD_payload_low, Ne.symm hrsRw, hrwEn, hrwBl]
  · simp [getLsbD_payload_low, Ne.symm hrsEn, henBl]
  · simp [getLsbD_payload_low, Ne.symm hrsBl, Ne.symm henBl]

/-! ### The bytes of a framed list -/

theorem and_highNibble (v : Byte) : v &&& 0xF0 = v.extractLsb' 4 4 ++ 0#4 := by
  refine BitVec.eq_of_getLsbD_eq fun k hk => ?_
  rw [getLsbD_append_zero]
  interval_cases k <;> simp

theorem extractLsb'_shiftLeft_nibble (v : Byte) : (v <<< 4).extractLsb' 4 4 = v.extractLsb' 0 4 := by
  refine BitVec.eq_of_getLsbD_eq fun k hk => ?_
  interval_cases k <;> simp

theorem bytesOf_nibble (p : Params) (bl : Bool) (rs : RegSel) (n : BitVec 4) :
    bytesOf p bl (nibble p (n ++ 0#4) rs) = pulseBytes p bl rs n := by
  simp [nibble, bytesOf, pulseBytes, payload, txByte, signalBit_false]

theorem bytesOf_frame (p : Params) (bl : Bool) (rs : RegSel) (v : Byte) :
    bytesOf p bl (frame p v rs) = wireBytes p bl rs v := by
  have hhigh := and_highNibble v
  have hlow : (v <<< 4) &&& 0xF0 = v.extractLsb' 0 4 ++ 0#4 := by rw [and_highNibble, extractLsb'_shiftLeft_nibble]
  rw [frame, bytesOf_append, hhigh, hlow, bytesOf_nibble, bytesOf_nibble]
  rfl

/-! ### The command bytes of a request -/

/-- What a list that frames only bytes of the table is (30_encoding.md R73, R74): its bytes are those of the framed bytes
`L`, whatever the backlight level, which it keeps. -/
structure Frames (p : Params) (g : Geometry) (ops : List MicroOp) (L : List (Byte × RegSel)) : Prop where
  commands : ∀ x ∈ L, x.2 = .cmd → CommandByte g x.1
  bytes    : ∀ bl, bytesOf p bl ops = L.flatMap fun x => wireBytes p bl x.2 x.1
  keepsBl  : ∀ bl, blAfter bl ops = bl

theorem frames_nil (p : Params) (g : Geometry) : Frames p g [] [] := ⟨by simp, fun _ => rfl, fun _ => rfl⟩

theorem frames_wait (p : Params) (g : Geometry) (t : Nat) : Frames p g [.wait t] [] :=
  ⟨by simp, fun _ => rfl, fun _ => rfl⟩

theorem frames_set (p : Params) (g : Geometry) (u : Update) (hu : ∀ b, u ≠ .blSet b) : Frames p g [.set u] [] := by
  cases u with
  | blSet b => exact absurd rfl (hu b)
  | _ => exact ⟨by simp, fun _ => rfl, fun _ => rfl⟩

theorem frames_command (p : Params) {g : Geometry} {v : Byte} (h : CommandByte g v) :
    Frames p g (frame p v .cmd) [(v, .cmd)] :=
  ⟨by simpa using h, fun bl => by simp [bytesOf_frame], blAfter_frame p v .cmd⟩

theorem frames_data (p : Params) (g : Geometry) (v : Byte) : Frames p g (frame p v .data) [(v, .data)] :=
  ⟨by simp, fun bl => by simp [bytesOf_frame], blAfter_frame p v .data⟩

theorem Frames.append {p : Params} {g : Geometry} {ops ops' : List MicroOp} {L L' : List (Byte × RegSel)}
    (h : Frames p g ops L) (h' : Frames p g ops' L') : Frames p g (ops ++ ops') (L ++ L') where
  commands := List.forall_mem_append.2 ⟨h.commands, h'.commands⟩
  bytes bl := by rw [bytesOf_append, h.keepsBl, h.bytes, h'.bytes, List.flatMap_append]
  keepsBl bl := by rw [blAfter_append, h.keepsBl, h'.keepsBl]

theorem frames_glyphFrames (p : Params) (g : Geometry) (glyph : Glyph) : ∃ L, Frames p g (glyphFrames p glyph) L := by
  unfold glyphFrames
  induction List.range 8 with
  | nil => exact ⟨_, frames_nil p g⟩
  | cons k ks ih =>
    obtain ⟨L, h⟩ := ih
    exact ⟨_, (frames_data p g (glyphByte glyph k)).append h⟩

theorem frames_homeCommand (p : Params) (g : Geometry) : ∃ L, Frames p g (homeCommand p) L :=
  ⟨_, (frames_command p (.inr (.inl rfl))).append (frames_wait p g p.tLong)⟩

/-- A byte is the part under a mask and the rest. -/
theorem eq_or_of_and_eq {v m k c : Byte} (hm : m ||| k = BitVec.allOnes 8) (h : v &&& m = c) : v = c ||| (v &&& k) := by
  rw [← h, ← BitVec.and_or_distrib_left, hm, BitVec.and_allOnes]

theorem commandByte_displayCtl (g : Geometry) {v : Byte} (h : v &&& 0xF8 = 0x08) : CommandByte g v :=
  .inr (.inr (.inr (.inl ⟨v, eq_or_of_and_eq rfl h⟩)))

theorem commandByte_entryMode (g : Geometry) {v : Byte} (h : v &&& 0xFC = 0x04) : CommandByte g v :=
  .inr (.inr (.inl ⟨v, eq_or_of_and_eq rfl h⟩))

theorem commandByte_address {g : Geometry} {c r : Byte} (h : inrange g c r = true) : CommandByte g (address g c r).1 :=
  .inr (.inr (.inr (.inr (.inr (.inr (.inr (.inr ⟨c, r, h, rfl⟩)))))))

theorem commandByte_glyphSlot (g : Geometry) {slot : Byte} (h : slot.toNat ≤ 7) : CommandByte g (0x40#8 ||| (slot <<< 3)) :=
  .inr (.inr (.inr (.inr (.inr (.inr (.inr (.inl ⟨slot, h, rfl⟩)))))))

/-- No cell of any panel has an address command above 0xE7. -/
theorem address_le {g : Geometry} {c r : Byte} (h : inrange g c r = true) : (address g c r).1.toNat ≤ 0xE7 := by
  simp only [inrange, Bool.and_eq_true, decide_eq_true_eq] at h
  obtain ⟨hc, hr⟩ := h
  cases g with
  | g20x4 =>
    simp only [columns, rows] at hc hr
    have hbase : rowBase20x4 r.toNat ≤ 0xD4 := by unfold rowBase20x4; split <;> decide
    simp only [address, if_pos hr, BitVec.toNat_ofNat]
    omega
  | g16x2 | g20x2 | g40x2 =>
    simp only [columns, rows] at hc hr
    simp only [address, BitVec.toNat_ofNat]
    omega

/-- The commands of the table have a 0 in some bit, and the address commands end below 0xFF (42_addressing.md R138). -/
theorem CommandByte.ne_ff {g : Geometry} {v : Byte} (h : CommandByte g v) : v ≠ 0xFF := by
  have hbit (k : Nat) (hk : v.getLsbD k = false) (hk8 : k < 8) : v ≠ 0xFF := by
    rintro rfl
    interval_cases k <;> simp at hk
  obtain rfl | rfl | ⟨m, rfl⟩ | ⟨m, rfl⟩ | rfl | rfl | rfl | ⟨slot, hslot, rfl⟩ | ⟨c, r, hin, rfl⟩ := h
  · decide
  · decide
  · exact hbit 3 (by simp) (by decide)
  · exact hbit 4 (by simp) (by decide)
  · decide
  · decide
  · decide
  · have hslot4 : slot[4] = false := Nat.testBit_lt_two_pow (i := 4) (Nat.lt_succ_of_le (hslot.trans (by decide)))
    exact hbit 7 (by simp [hslot4]) (by decide)
  · exact fun heq => absurd (heq ▸ address_le hin) (by decide)

theorem inrange_cursor {s : State} (h : CursorInRange s) :
    inrange s.geom (s.col.zeroExtend 8) (s.row.zeroExtend 8) = true := by
  simp only [inrange, BitVec.toNat_setWidth_of_le (by decide : 6 ≤ 8), BitVec.toNat_setWidth_of_le (by decide : 2 ≤ 8), h.1,
    h.2, decide_true, Bool.and_self]

/-! The modes that re-emit an image frame it with its hardwired bits, which no mask of a mode touches. -/

theorem frames_mode (p : Params) {g : Geometry} {v : Byte} {u : Update} (hu : ∀ b, u ≠ .blSet b) (hv : CommandByte g v) :
    ∃ L, Frames p g (.set u :: frame p v .cmd) L :=
  ⟨_, (frames_set p g u hu).append (frames_command p hv)⟩

theorem frames_dcSetMode {s : State} (h : Inv s) {m : Byte} (hm : m &&& 0xF8 = 0) :
    ∃ L, Frames s.params s.geom (dcSetMode m s).seq L :=
  frames_mode _ nofun (commandByte_displayCtl _ ((orFlag_and_of_disjoint _ _ _ hm).trans h.displayCtl))

theorem frames_dcClrMode {s : State} (h : Inv s) {m : Byte} (hm : m &&& 0xF8 = 0) :
    ∃ L, Frames s.params s.geom (dcClrMode m s).seq L :=
  frames_mode _ nofun (commandByte_displayCtl _ ((clrFlag_and_of_disjoint _ _ _ hm).trans h.displayCtl))

theorem frames_emSetMode {s : State} (h : Inv s) {m : Byte} (hm : m &&& 0xFC = 0) :
    ∃ L, Frames s.params s.geom (emSetMode m s).seq L :=
  frames_mode _ nofun (commandByte_entryMode _ ((orFlag_and_of_disjoint _ _ _ hm).trans h.entryMode))

theorem frames_emClrMode {s : State} (h : Inv s) {m : Byte} (hm : m &&& 0xFC = 0) :
    ∃ L, Frames s.params s.geom (emClrMode m s).seq L :=
  frames_mode _ nofun (commandByte_entryMode _ ((clrFlag_and_of_disjoint _ _ _ hm).trans h.entryMode))

/-- What a request loads: framed bytes of the table, or the write of a backlight mode. -/
theorem frames_exec (i : Instr) (s t : State) (h : Inv s) (he : exec i s = .next t) :
    (∃ L, Frames s.params s.geom t.seq L)
    ∨ ((i = .backlightOn ∨ i = .backlightOff) ∧ ∃ b, t.seq = .set (.blSet b) :: blWrite) := by
  have hnil : ∃ L, Frames s.params s.geom [] L := ⟨_, frames_nil _ _⟩
  have hset (u : Update) (hu : ∀ b, u ≠ .blSet b) := frames_set s.params s.geom u hu
  obtain ⟨Lh, hhome⟩ := frames_homeCommand s.params s.geom
  cases i with
  | cls =>
    cases he
    left
    have hcls := (frames_command s.params (g := s.geom) (.inl rfl)).append (frames_wait _ _ s.params.tLong)
    simp only [loadSeq_seq]
    split
    · exact ⟨_, (hcls.append hhome).append (hset _ nofun)⟩
    · exact ⟨_, (hcls.append (frames_nil ..)).append (hset _ nofun)⟩
  | home => cases he; exact .inl ⟨_, hhome.append (hset _ nofun)⟩
  | locate c r =>
    simp only [exec, execLocate] at he
    split at he <;> cases he
    · exact .inl ⟨_, hset _ nofun⟩
    · exact .inl hnil
  | character c r v =>
    simp only [exec, execCharacter] at he
    split at he <;> cases he
    · next hin =>
      have hcmd := commandByte_address (Bool.and_eq_true_iff.1 hin).1
      exact .inl ⟨_, (frames_command _ hcmd).append (frames_data ..)⟩
    · exact .inl hnil
  | create slot glyph =>
    simp only [exec, execCreate] at he
    split at he <;> cases he
    · exact .inl hnil
    · next hslot =>
      obtain ⟨Lg, hglyph⟩ := frames_glyphFrames s.params s.geom glyph
      exact .inl ⟨_, (frames_command _ (commandByte_glyphSlot _ (Nat.not_lt.1 hslot))).append hglyph⟩
  | putc ch =>
    simp only [exec, execPutc] at he
    split at he <;> cases he
    · exact .inl ⟨_, hset _ nofun⟩
    · have hcmd := commandByte_address (inrange_cursor h.cursor)
      exact .inl ⟨_, ((frames_command _ hcmd).append (frames_data ..)).append (hset _ nofun)⟩
  | displayOn | cursorOn | blinkOn => cases he; exact .inl (frames_dcSetMode h rfl)
  | displayOff | cursorOff | blinkOff => cases he; exact .inl (frames_dcClrMode h rfl)
  | leftToRight | autoscrollOn => cases he; exact .inl (frames_emSetMode h rfl)
  | rightToLeft | autoscrollOff => cases he; exact .inl (frames_emClrMode h rfl)
  | scrollLeft => cases he; exact .inl ⟨_, frames_command _ (.inr (.inr (.inr (.inr (.inl rfl)))))⟩
  | scrollRight => cases he; exact .inl ⟨_, frames_command _ (.inr (.inr (.inr (.inr (.inr (.inl rfl))))))⟩
  | backlightOn => cases he; exact .inr ⟨.inl rfl, _, rfl⟩
  | backlightOff => cases he; exact .inr ⟨.inr rfl, _, rfl⟩

/-- Settles O31: the list of framed bytes is that of frames_exec, and `BLWRITE` carries the backlight bit alone. -/
theorem commandBytesAreThoseOfTheTable : Obligations.CommandBytesAreThoseOfTheTable := by
  intro i s t h he
  obtain ⟨L, hL⟩ | ⟨hi, b, hseq⟩ := frames_exec i s t h he
  · exact .inl ⟨L, fun x hx hcmd => ⟨hL.commands x hx hcmd, (hL.commands x hx hcmd).ne_ff⟩, hL.bytes s.bl⟩
  · exact .inr ⟨hi, b, by simp [hseq, bytesOf, blWrite, txByte]⟩

end Sys2Proof.Machine
end

section
/-!
PROOFS. The nibble framer (40_nibble_framer.md): the steps of a `PUT` and of a `WAIT`, the payload table, and the enable pulses
of every list that a request or the initialization loads.
-/

namespace Sys2Proof.Machine

/-! ### The steps of a PUT and of a WAIT -/

/-- The byte on the wire is the payload with the backlight bit at its position (40_nibble_framer.md R87). -/
theorem getLsbD_txByte (p : Params) (bl : Bool) (q : Byte) (k : Nat) :
    (txByte p bl q).getLsbD k = (q.getLsbD k || decide (k = p.bitBl) && bl) := by
  rw [txByte, BitVec.getLsbD_or, getLsbD_signalBit]

theorem addr8_toNat (a : BitVec 7) : (addr8 a).toNat = 2 * a.toNat :=
  (append_toNat a 0).trans (Nat.mul_comm ..)

/-- Settles O20: of what a `PUT` can do, the issue, after which its write stands on the port. -/
theorem putIssuesOneWriteWithTheCurrentBacklight : Obligations.PutIssuesOneWriteWithTheCurrentBacklight := by
  intro s q ops hr hf hs ht hq
  refine ⟨_, _, ?_, rfl, txPort_of_outstanding hs rfl, addr8_toNat s.addr7, fun k => ?_⟩
  · rw [step_microOp s _ ops hr hf hs]
    simp [execMicroOp, execPut, ht]
  · refine (getLsbD_txByte s.params s.bl q k).trans ?_
    split
    · next hk => simp [hk, hq]
    · next hk => simp [hk]

/-- Settles O21: of what a `PUT` can do, the completion. -/
theorem answeredWriteRemovesItsPut : Obligations.AnsweredWriteRemovesItsPut := by
  intro s q ops hr hf hs ht hd ho
  rw [step_microOp s _ ops hr hf hs]
  simp [execMicroOp, execPut, ht, hd, ho, popSeq]

/-- Settles O25: the two cases of a `WAIT` are those of execWait_cases. -/
theorem waitEndsNoEarlierThanItsMinimum : Obligations.WaitEndsNoEarlierThanItsMinimum := by
  intro s t ops hr hf hs
  refine ⟨_, step_microOp s _ ops hr hf hs, ?_⟩
  obtain ⟨hle, he⟩ | ⟨hlt, he⟩ := execWait_cases s.pins t ops (advance s)
  · exact .inl ⟨congrArg State.seq he, hle, he⟩
  · exact .inr ⟨hlt, he⟩

/-! ### The payloads of a nibble -/

/-- Settles O28: the nibble and the frame have their payloads, and `BLWRITE` has a payload of 0. -/
theorem frameSendsHighNibbleThenLowNibble : Obligations.FrameSendsHighNibbleThenLowNibble :=
  ⟨bytesOf_nibble, bytesOf_frame, fun p bl => by simp [blWrite, bytesOf, txByte]⟩

/-- The enable line is the one difference between the payloads of a pulse (40_nibble_framer.md R83). -/
theorem payload_enable (p : Params) (n : BitVec 4) (rs : RegSel) (bl : Bool) :
    payload p n rs true bl = payload p n rs false bl ||| signalBit p.bitEn true := by
  simp [payload, signalBit_false, BitVec.or_assoc, BitVec.or_comm (signalBit p.bitEn true)]

/-- A nibble with the signals `low` below it, as a number. -/
theorem nibble_or_signals (n low : BitVec 4) :
    (n ++ 0#4 : Byte) ||| low.zeroExtend 8 = BitVec.ofNat 8 (16 * n.toNat + low.toNat) := by
  have happend : (n ++ 0#4 : Byte) ||| low.zeroExtend 8 = n ++ low := by
    refine BitVec.eq_of_getLsbD_eq fun k hk => ?_
    rw [BitVec.getLsbD_or, getLsbD_append_zero, BitVec.getLsbD_append]
    split
    · simp [hk]
    · next hlow => simp [BitVec.getLsbD_of_ge low k (Nat.not_lt.1 hlow)]
  rw [happend]
  refine eq_ofNat_of_toNat_eq ?_
  rw [append_toNat]
  omega

/-- The signals of R94 under the default positions: RS is bit 0, the backlight bit 3. -/
theorem payload_default (n : BitVec 4) (rs : RegSel) (bl : Bool) :
    payload Params.default n rs false bl = BitVec.ofNat 8 (16 * n.toNat + match rs, bl with
      | .cmd, false => 0x00 | .cmd, true => 0x08 | .data, false => 0x01 | .data, true => 0x09) := by
  simp only [payload, BitVec.or_assoc]
  cases rs <;> cases bl
  · exact nibble_or_signals n 0x0
  · exact nibble_or_signals n 0x8
  · exact nibble_or_signals n 0x1
  · exact nibble_or_signals n 0x9

/-- Settles O29: the low payload as a number, and the enable line at bit 2. -/
theorem defaultPayloadTable : Obligations.DefaultPayloadTable := by
  intro n rs bl
  rw [bytesOf_nibble, pulseBytes, payload_enable, payload_default]
  rfl

/-! ### The enable pulses of a list -/

theorem Pulsed.append {p : Params} {ops ops' : List MicroOp} (h : Pulsed p ops) (h' : Pulsed p ops') :
    Pulsed p (ops ++ ops') := by
  induction h with
  | nil => exact h'
  | pulse q ops en rw bl _ ih => exact .pulse q _ en rw bl ih
  | backlight ops _ ih => exact .backlight _ ih
  | wait t ops _ ih => exact .wait t _ ih
  | set u ops _ ih => exact .set u _ ih

/-- A nibble is one pulse: its low payload has a signal at the position of RS only. -/
theorem pulsed_nibble {p : Params} (hp : p.Distinct) (n : BitVec 4) (rs : RegSel) : Pulsed p (nibble p (n ++ 0#4) rs) := by
  have hlow (pos : Fin 4) (hpos : p.bitRs ≠ pos) :
      ((n ++ 0#4 : Byte) ||| signalBit p.bitRs rs.level).getLsbD pos = false := by
    simp [getLsbD_append_zero, getLsbD_signalBit, Fin.val_inj, Ne.symm hpos]
  simp only [Params.Distinct, List.nodup_cons, List.mem_cons, not_or] at hp
  obtain ⟨⟨hrsRw, hrsEn, hrsBl, _⟩, _⟩ := hp
  exact .pulse _ [] (hlow _ hrsEn) (hlow _ hrsRw) (hlow _ hrsBl) .nil

theorem pulsed_frame {p : Params} (hp : p.Distinct) (v : Byte) (rs : RegSel) : Pulsed p (frame p v rs) := by
  rw [frame, and_highNibble, and_highNibble]
  exact (pulsed_nibble hp _ rs).append (pulsed_nibble hp _ rs)

theorem pulsed_homeCommand {p : Params} (hp : p.Distinct) : Pulsed p (homeCommand p) :=
  (pulsed_frame hp 0x02 .cmd).append (.wait _ _ .nil)

theorem pulsed_glyphFrames {p : Params} (hp : p.Distinct) (glyph : Glyph) : Pulsed p (glyphFrames p glyph) := by
  unfold glyphFrames
  induction List.range 8 with
  | nil => exact .nil
  | cons k ks ih => exact (pulsed_frame hp (glyphByte glyph k) .data).append ih

theorem pulsed_initSeq {p : Params} (hp : p.Distinct) : Pulsed p (initSeq p) := by
  have hset (u : Update) : Pulsed p [.set u] := .set u _ .nil
  have hwait (t : Nat) : Pulsed p [.wait t] := .wait t _ .nil
  have hframe (v : Byte) : Pulsed p (frame p v .cmd) := pulsed_frame hp v .cmd
  have h30 : Pulsed p (nibble p 0x30 .cmd) := pulsed_nibble hp 0x3 .cmd
  have h20 : Pulsed p (nibble p 0x20 .cmd) := pulsed_nibble hp 0x2 .cmd
  have hlight : Pulsed p blWrite := .backlight _ .nil
  have hstart : Pulsed p [.set .loadImgs, .set (.blSet false)] := .set _ _ (hset _)
  have hnibbles := ((((((hstart.append h30).append (hwait p.tInit1)).append h30).append (hwait p.tInit2)).append h30).append
    (hwait p.tInit3)).append h20
  have himages := (hnibbles.append (hframe fsPowerOn)).append (hframe dcPowerOn)
  have hon := (himages.append (hset (.dcOr dcD))).append (hframe 0x0C)
  have hcursor := (hon.append (hset (.dcClr dcC))).append (hframe 0x0C)
  have hblink := (hcursor.append (hset (.dcClr dcB))).append (hframe 0x0C)
  have hclear := (hblink.append (hframe 0x01)).append (hwait p.tLong)
  have hhome := (((hclear.append (hframe emPowerOn)).append (hframe 0x02)).append (hwait p.tLong)).append (hset .curHome)
  exact (hhome.append (hset (.blSet true))).append hlight

/-- Every list that a request loads is pulsed. -/
theorem pulsed_exec (i : Instr) (s t : State) (hp : s.params.Distinct) (h : exec i s = .next t) :
    Pulsed s.params t.seq := by
  have hset (u : Update) : Pulsed s.params [.set u] := .set u _ .nil
  have hframe (v : Byte) (rs : RegSel) := pulsed_frame hp v rs
  have hhome := pulsed_homeCommand hp
  cases i with
  | cls =>
    cases h
    refine (((hframe 0x01 .cmd).append (.wait _ _ .nil)).append ?_).append (hset _)
    split
    · exact hhome
    · exact .nil
  | home => cases h; exact hhome.append (hset _)
  | locate c r =>
    simp only [exec, execLocate] at h
    split at h <;> cases h
    · exact hset _
    · exact .nil
  | character c r v =>
    simp only [exec, execCharacter] at h
    split at h <;> cases h
    · exact (hframe _ _).append (hframe _ _)
    · exact .nil
  | create slot glyph =>
    simp only [exec, execCreate] at h
    split at h <;> cases h
    · exact .nil
    · exact (hframe _ _).append (pulsed_glyphFrames hp glyph)
  | putc ch =>
    simp only [exec, execPutc] at h
    split at h <;> cases h
    · exact hset _
    · exact ((hframe _ _).append (hframe _ _)).append (hset _)
  | scrollLeft | scrollRight => cases h; exact hframe _ _
  | backlightOn | backlightOff => cases h; exact .set _ _ (.backlight _ .nil)
  | displayOn | displayOff | cursorOn | cursorOff | blinkOn | blinkOff | leftToRight | rightToLeft | autoscrollOn
  | autoscrollOff => cases h; exact .set _ _ (hframe _ _)

/-- Settles O30: the lists of the requests, and that of the initialization. -/
theorem enableRisesOnlyInsideWholePulses : Obligations.EnableRisesOnlyInsideWholePulses :=
  ⟨pulsed_exec, fun _ => pulsed_initSeq⟩

end Sys2Proof.Machine
end

section
/-!
PROOFS. The controller (41_controller.md): the initialization sequence and a prompt run of it, what the list of each request
updates, and the lists of CLS, HOME and the DISPLAY modes.
-/

namespace Sys2Proof.Machine

/-! ### The initialization sequence -/

/-- The payloads of the sequence, nibble by nibble and frame by frame: the backlight is off until the last write, whatever it
was before. -/
theorem bytesOf_initSeq (p : Params) (bl : Bool) : bytesOf p bl (initSeq p)
    = pulseBytes p false .cmd 0x3 ++ pulseBytes p false .cmd 0x3 ++ pulseBytes p false .cmd 0x3 ++ pulseBytes p false .cmd 0x2
      ++ wireBytes p false .cmd fsPowerOn ++ wireBytes p false .cmd dcPowerOn
      ++ wireBytes p false .cmd 0x0C ++ wireBytes p false .cmd 0x0C ++ wireBytes p false .cmd 0x0C
      ++ wireBytes p false .cmd 0x01 ++ wireBytes p false .cmd emPowerOn ++ wireBytes p false .cmd 0x02
      ++ [txByte p true 0] := by
  have h30 (bl : Bool) : bytesOf p bl (nibble p 0x30 .cmd) = pulseBytes p bl .cmd 0x3 := bytesOf_nibble p bl .cmd 0x3
  have h20 (bl : Bool) : bytesOf p bl (nibble p 0x20 .cmd) = pulseBytes p bl .cmd 0x2 := bytesOf_nibble p bl .cmd 0x2
  have hkeep (n : Byte) (bl : Bool) : blAfter bl (nibble p n .cmd) = bl := rfl
  unfold initSeq
  simp only [blWrite, bytesOf_append, bytesOf_frame, h30, h20, blAfter_append, hkeep, blAfter_frame, blAfter, bytesOf,
    List.nil_append, List.append_nil]

/-- 41_controller.md R124: the registers that the sequence leaves, whatever they held. -/
theorem registers_applySets_initSeq (p : Params) (s : State) :
    registers (applySets (initSeq p) s) = (0x28, 0x0C, 0x06, true, 0, 0, s.geom, s.addr7) := by
  have himage : clrFlag (clrFlag (orFlag dcPowerOn dcD) dcC) dcB = 0x0C := by decide
  unfold initSeq
  simp [blWrite, applySets, registers, fsPowerOn, emPowerOn, himage]

/-- Settles O52: the images and the masks stand in the list by name, and its bytes are those of bytesOf_initSeq under the default
parameters. -/
theorem initializationSequenceSendsItsBytes : Obligations.InitializationSequenceSendsItsBytes := by
  refine ⟨fun p => ?_, fun bl => ?_, fun bl => ?_, ?_, fun s => registers_applySets_initSeq s.params s⟩
  · unfold initSeq
    simp only [List.flatten_cons, List.flatten_nil, List.append_nil, List.append_assoc]
    rw [fsPowerOn, dcPowerOn, emPowerOn, dcD, dcC, dcB, blWrite]
  · rw [bytesOf_initSeq]; rfl
  · rw [bytesOf_initSeq]; rfl
  · unfold initSeq
    simp [blWrite, waitsOf, Params.default]

/-! ### A prompt run of the initialization -/

/-- In UNINIT the first step of a prompt environment finds `T_PWR_SETTLE` passed, and loads the sequence. -/
theorem next_uninit_of_prompt {s : State} (hf : s.fsm = .uninit) (hp : Prompt s.params s.pins) :
    next s = { advance s with fsm := .initializing, seq := initSeq s.params, cur := .init, timer := 0 } := by
  obtain ⟨hr, _, _, htime⟩ := hp
  have hsettled : s.params.tPwrSettle ≤ s.timer + s.pins.elapsedUs := by unfold longestWait at htime; omega
  rw [next_eq_of_step (step_uninit s hr hf)]
  exact if_pos hsettled

/-- In a prompt environment the initialization runs through its list, and the step after it makes the block ready. -/
theorem initialization_of_prompt {s : State} (ops : List MicroOp) (hf : s.fsm = .initializing) (hc : s.cur = .init)
    (hs : s.seq = ops) (ht : s.txp = false) (hp : PromptFor (stepsOf ops + 1) s)
    (hle : ∀ t, .wait t ∈ ops → t ≤ longestWait s.params) :
    reqReady (after (stepsOf ops + 1) s) = true
    ∧ registers (after (stepsOf ops + 1) s) = registers (applySets ops s)
    ∧ trace (stepsOf ops + 1) s = (bytesOf s.params s.bl ops).map (fun b => ⟨addr8 s.addr7, b⟩)
    ∧ responses (stepsOf ops + 1) s = [] := by
  have hrun : RunsThrough ops [] s := runsThrough_of_prompt ops s (.inl hf) hs ht (hp.mono (Nat.le_succ _)) hle
  have hready : next (after (stepsOf ops) s) = finishInit (advance (after (stepsOf ops) s)) :=
    next_eq_of_step (step_initDone _ (hp.drop hrun.script hrun.params).pins.1 (.inl (hrun.fsm.trans hf)) hrun.seq
      (hrun.cur.trans hc))
  have hidle : txPort (next (after (stepsOf ops) s)) = none := txPort_of_idle (by simp [hready, hrun.txp])
  rw [after_add, trace_add, responses_add, hrun.trace, hrun.quiet]
  simp only [after_succ, after_zero, Machine.trace, issues, responses, hidle]
  exact ⟨by simp [hready, hrun.seq], by simp [hready, hrun.registers], by simp, by simp [hready]⟩

/-- Settles O58: one step ends the settle time, and the rest is the run of the initialization. -/
theorem promptInitializationReachesReady : Obligations.PromptInitializationReachesReady := by
  intro s h hf hlen hprompt
  have hregisters := registers_applySets_initSeq s.params
  have hbytes (bl : Bool) : bytesOf s.params bl (initSeq s.params) = bytesOf s.params false (initSeq s.params) :=
    (bytesOf_initSeq s.params bl).trans (bytesOf_initSeq s.params false).symm
  have htimely (t : Nat) (ht : .wait t ∈ initSeq s.params) : t ≤ longestWait s.params :=
    (lawful_initSeq s.params s.geom _ ht).timely t rfl
  have hsettled := next_uninit_of_prompt hf
  -- Of the list only these facts count; as a variable it is never evaluated below.
  generalize initSeq s.params = ops at *
  have hp : PromptFor (stepsOf ops + 1 + 1) s := ⟨hlen, hprompt⟩
  have hstart := hsettled hp.pins
  have hp' : PromptFor (stepsOf ops + 1) (next s) :=
    (Nat.add_comm (stepsOf ops + 1) 1 ▸ hp).drop (m := 1) (by simp [hstart]) (by simp [hstart])
  have htxp : s.txp = false := h.txp_of_seq_nil (h.uninitIdle hf).1
  have hissues : issues s = [] := by rw [issues_of_idle (txPort_of_idle htxp), txPort_of_idle (by simp [hstart, htxp])]; rfl
  obtain ⟨hready, hregs, htrace, hquiet⟩ := initialization_of_prompt ops (by simp [hstart]) (by simp [hstart])
    (by simp [hstart]) (by simp [hstart, htxp]) hp' (by simpa [hstart] using htimely)
  refine ⟨hready, ?_, ?_, ?_⟩
  · exact hregs.trans ((hregisters _).trans (by simp [hstart]))
  · rw [Machine.trace, hissues, htrace, ← hbytes s.bl]
    simp [hstart]
  · rw [responses, hquiet]
    simp [hstart]

/-! ### The updates of the requests -/

@[simp] theorem updatesOf_homeCommand (p : Params) : updatesOf (homeCommand p) = [] := rfl

@[simp] theorem updatesOf_glyphFrames (p : Params) (glyph : Glyph) : updatesOf (glyphFrames p glyph) = [] := by
  unfold glyphFrames
  induction List.range 8 with
  | nil => rfl
  | cons k ks ih => simp [ih]

/-- A request that runs makes the updates of its list, and one that is refused makes none. -/
theorem updatesOf_loadSeq {ops : List MicroOp} {us : List Update} (s : State) (h : updatesOf ops = us) :
    updatesOf (loadSeq ops s).seq = if (loadSeq ops s).cur ≠ .req .ok then [] else us := by
  simpa using h

theorem updatesOf_raiseError (s : State) (us : List Update) :
    updatesOf (raiseError .errAddr s).seq = if (raiseError .errAddr s).cur ≠ .req .ok then [] else us := by
  simp [updatesOf]

/-- Settles O33: frames and waits make no update, so the updates of a list are those that stand in it by name. -/
theorem requestsWriteOnlyTheirRegisters : Obligations.RequestsWriteOnlyTheirRegisters := by
  intro i s t h
  cases i with
  | cls =>
    cases h
    refine updatesOf_loadSeq s ?_
    cases s.params.clsHome <;> simp [updatesOf]
  | locate c r =>
    simp only [exec, execLocate] at h
    split at h <;> cases h
    · exact updatesOf_loadSeq s rfl
    · exact updatesOf_raiseError s _
  | character c r v =>
    simp only [exec, execCharacter] at h
    split at h <;> cases h
    · exact updatesOf_loadSeq s (by simp)
    · exact updatesOf_raiseError s _
  | create slot glyph =>
    simp only [exec, execCreate] at h
    split at h <;> cases h
    · exact updatesOf_loadSeq s rfl
    · exact updatesOf_loadSeq s (by simp)
  | putc ch =>
    simp only [exec, execPutc] at h
    split at h <;> cases h
    · next hnl => exact updatesOf_loadSeq s (congrArg (fun u => [u]) (if_pos hnl).symm)
    · next hnl => exact updatesOf_loadSeq s (congrArg (fun u => [u]) (if_neg hnl).symm)
  | home | displayOn | displayOff | cursorOn | cursorOff | blinkOn | blinkOff | scrollLeft | scrollRight | leftToRight
  | rightToLeft | autoscrollOn | autoscrollOff | backlightOn | backlightOff => cases h; exact updatesOf_loadSeq s rfl

/-! ### CLS and HOME -/

theorem bytesOf_homeCommand (p : Params) (bl : Bool) : bytesOf p bl (homeCommand p) = wireBytes p bl .cmd 0x02 := by
  simp [homeCommand, bytesOf_append, bytesOf_frame, bytesOf]

/-- Settles O34: CLS loads the clear command, then the home command where `CLS_HOME` holds. -/
theorem clsClearsAndHomes : Obligations.ClsClearsAndHomes := by
  refine fun s => ⟨_, rfl, rfl, rfl, ?_, ?_⟩
  · cases s.params.clsHome <;> simp [bytesOf_append, bytesOf_frame, bytesOf_homeCommand, bytesOf]
  · cases s.params.clsHome <;> rfl

/-- Settles O35: HOME loads the home command, and then homes the cursor. -/
theorem homeHomes : Obligations.HomeHomes := by
  refine fun s => ⟨_, rfl, rfl, rfl, ?_, rfl⟩
  simp [bytesOf_append, bytesOf_homeCommand, bytesOf]

/-! ### The DISPLAY modes -/

/-- A mode that loads its update and then the frame of the new image does that and nothing else (10_state.md R28). -/
theorem exec_imageMode {s : State} {i : Instr} {u : Update} {image : Byte} {effect : State → State}
    (he : exec i s = .next (loadSeq (.set u :: frame s.params image .cmd) s)) (hu : ∀ b, u ≠ .blSet b)
    (heffect : ∀ ops, applyUpdate u (loadSeq ops s) = effect (loadSeq ops s)) :
    ∃ t, exec i s = .next t ∧ t = { s with seq := t.seq, cur := .req .ok }
      ∧ (∃ u, t.seq = .set u :: frame s.params image .cmd)
      ∧ bytesOf s.params s.bl t.seq = wireBytes s.params s.bl .cmd image ∧ applySets t.seq t = effect t := by
  refine ⟨_, he, rfl, ⟨u, rfl⟩, ?_, heffect _⟩
  cases u with
  | blSet b => exact absurd rfl (hu b)
  | _ => exact bytesOf_frame s.params s.bl .cmd image

/-- Settles O36: each mode makes its one update of `DC_IMG`. -/
theorem displayControlModesComplete : Obligations.DisplayControlModesComplete := by
  intro s i image hmem
  simp only [List.mem_cons, Prod.mk.injEq, List.not_mem_nil, or_false] at hmem
  obtain ⟨rfl, rfl⟩ | ⟨rfl, rfl⟩ | ⟨rfl, rfl⟩ | ⟨rfl, rfl⟩ | ⟨rfl, rfl⟩ | ⟨rfl, rfl⟩ := hmem
  all_goals exact exec_imageMode rfl nofun fun _ => rfl

/-- Settles O37: each mode makes its one update of `EM_IMG`. -/
theorem entryModesComplete : Obligations.EntryModesComplete := by
  intro s i image hmem
  simp only [List.mem_cons, Prod.mk.injEq, List.not_mem_nil, or_false] at hmem
  obtain ⟨rfl, rfl⟩ | ⟨rfl, rfl⟩ | ⟨rfl, rfl⟩ | ⟨rfl, rfl⟩ := hmem
  all_goals exact exec_imageMode rfl nofun fun _ => rfl

/-- Settles O39: a scroll mode loads the frame of its command alone. -/
theorem scrollModesComplete : Obligations.ScrollModesComplete := by
  intro s i command hmem
  simp only [List.mem_cons, Prod.mk.injEq, List.not_mem_nil, or_false] at hmem
  obtain ⟨rfl, rfl⟩ | ⟨rfl, rfl⟩ := hmem
  all_goals exact ⟨_, rfl, rfl, bytesOf_frame .., rfl⟩

/-- Settles O40: the update stands before the write, which sends the new level alone. -/
theorem backlightModesComplete : Obligations.BacklightModesComplete := by
  intro s i level hmem
  simp only [List.mem_cons, Prod.mk.injEq, List.not_mem_nil, or_false] at hmem
  have hbyte (b : Bool) : txByte s.params b 0 = if b then 1#8 <<< s.params.bitBl.val else 0 := by
    cases b <;> simp [txByte, signalBit]
  obtain ⟨rfl, rfl⟩ | ⟨rfl, rfl⟩ := hmem
  all_goals exact ⟨_, rfl, rfl, congrArg (fun b => [b]) (hbyte _), rfl⟩

end Sys2Proof.Machine
end

section
/-!
PROOFS. Addressing (42_addressing.md): the geometries, the mapper on every input and on the cells of a panel, and the requests
LOCATE and CHARACTER.
-/

namespace Sys2Proof.Machine

/-! ### The geometries -/

theorem columns_lt (g : Geometry) : columns g < 2 ^ 6 := by cases g <;> decide

theorem rows_le (g : Geometry) : rows g ≤ 4 := by cases g <;> decide

/-- A position is in range exactly where its column and its row are those of the panel (42_addressing.md R131). -/
theorem inrange_iff {g : Geometry} {c r : Byte} :
    inrange g c r = true ↔ c.toNat < columns g ∧ r.toNat < rows g := by
  simp only [inrange, Bool.and_eq_true, decide_eq_true_eq]

/-- Settles O48: the output ports are wide enough for the columns and rows of every geometry. -/
theorem geometriesHaveTheirColumnsAndRows : Obligations.GeometriesHaveTheirColumnsAndRows :=
  ⟨rfl, fun s => ⟨(BitVec.toNat_ofNat ..).trans (Nat.mod_eq_of_lt (columns_lt s.geom)),
    (BitVec.toNat_ofNat ..).trans (Nat.mod_eq_of_lt ((rows_le s.geom).trans_lt (by decide)))⟩⟩

/-! ### The row bases -/

/-- The list of 42_addressing.md R127 holds the row bases of the model. -/
theorem getD_rowBases {r : Nat} (hr : r < 4) : [0x80, 0xC0, 0x94, 0xD4].getD r 0 = rowBase20x4 r := by
  interval_cases r <;> rfl

/-- On a panel of two rows the bases of the other formula are the first two of the list. -/
theorem rowBase20x4_of_lt_two {r : Nat} (hr : r < 2) : rowBase20x4 r = 0x80 + r * 0x40 := by interval_cases r <;> rfl

theorem le_rowBase20x4 (r : Nat) : 0x80 ≤ rowBase20x4 r := by unfold rowBase20x4; split <;> decide

/-- Every row of every panel ends at 0xE7 or below (42_addressing.md R130). -/
theorem rowBase20x4_add_columns_le (g : Geometry) : ∀ r < rows g, rowBase20x4 r + columns g ≤ 0xE8 := by
  cases g <;> decide

/-- Of two rows of a panel one ends before the other begins. -/
theorem rowBase20x4_disjoint (g : Geometry) : ∀ r < rows g, ∀ r' < rows g, r ≠ r' →
    rowBase20x4 r + columns g ≤ rowBase20x4 r' ∨ rowBase20x4 r' + columns g ≤ rowBase20x4 r := by
  cases g <;> decide

/-! ### The mapper -/

theorem address_of_ne_20x4 {g : Geometry} (hg : g ≠ .g20x4) (c r : Byte) :
    address g c r = (BitVec.ofNat 8 (0x80 + r.toNat * 0x40 + c.toNat), true) := by
  cases g with
  | g20x4 => exact absurd rfl hg
  | g16x2 | g20x2 | g40x2 => rfl

theorem address_20x4_of_lt {r : Byte} (hr : r.toNat < 4) (c : Byte) :
    address .g20x4 c r = (BitVec.ofNat 8 (rowBase20x4 r.toNat + c.toNat), true) := if_pos hr

theorem address_20x4_of_le {r : Byte} (hr : 4 ≤ r.toNat) (c : Byte) : address .g20x4 c r = (0xFF, false) :=
  if_neg hr.not_gt

/-- Settles O49: taking the sum modulo 256 is taking it in eight bits. -/
theorem addressFollowsTheFormulaOnEveryInput : Obligations.AddressFollowsTheFormulaOnEveryInput := by
  have hmod (n : Nat) : BitVec.ofNat 8 (n % 256) = BitVec.ofNat 8 n := BitVec.eq_of_toNat_eq (by simp)
  refine fun c r => ⟨fun g hg => ?_, fun hr => ?_, fun hr => address_20x4_of_le hr c⟩
  · rw [hmod, address_of_ne_20x4 hg]
  · rw [hmod, getD_rowBases hr, address_20x4_of_lt hr]

/-- On the cells of a panel the two formulas are one. -/
theorem address_of_inrange {g : Geometry} {c r : Byte} (h : inrange g c r = true) :
    address g c r = (BitVec.ofNat 8 (rowBase20x4 r.toNat + c.toNat), true) := by
  obtain ⟨_, hr⟩ := inrange_iff.1 h
  cases g with
  | g20x4 => exact address_20x4_of_lt hr c
  | g16x2 | g20x2 | g40x2 => rw [rowBase20x4_of_lt_two hr, address_of_ne_20x4 (by decide)]

/-- There the sum does not overflow a byte. -/
theorem address_toNat_of_inrange {g : Geometry} {c r : Byte} (h : inrange g c r = true) :
    (address g c r).1.toNat = rowBase20x4 r.toNat + c.toNat := by
  obtain ⟨hc, hr⟩ := inrange_iff.1 h
  have hend := rowBase20x4_add_columns_le g _ hr
  rw [address_of_inrange h, BitVec.toNat_ofNat, Nat.mod_eq_of_lt (by omega)]

theorem address_toNat_eq_getD {g : Geometry} {c r : Byte} (h : inrange g c r = true) :
    (address g c r).1.toNat = [0x80, 0xC0, 0x94, 0xD4].getD r.toNat 0 + c.toNat := by
  rw [address_toNat_of_inrange h, getD_rowBases ((inrange_iff.1 h).2.trans_le (rows_le g))]

/-- Settles O50: the row base is 0x80 at least, and a row ends at 0xE7. -/
theorem inRangeAddressesAreBasePlusColumn : Obligations.InRangeAddressesAreBasePlusColumn := by
  refine fun g c r h => ⟨congrArg Prod.snd (address_of_inrange h), address_toNat_eq_getD h, ?_, address_le h⟩
  rw [address_toNat_of_inrange h]
  exact (le_rowBase20x4 _).trans (Nat.le_add_right ..)

/-- Settles O51: cells of two rows lie in disjoint intervals, and in one row the column is the offset from the base. -/
theorem distinctCellsHaveDistinctAddresses : Obligations.DistinctCellsHaveDistinctAddresses := by
  intro g c r c' r' h h' heq
  have hsum : rowBase20x4 r.toNat + c.toNat = rowBase20x4 r'.toNat + c'.toNat := by
    rw [← address_toNat_of_inrange h, ← address_toNat_of_inrange h', heq]
  obtain ⟨hc, hr⟩ := inrange_iff.1 h
  obtain ⟨hc', hr'⟩ := inrange_iff.1 h'
  have hrow : r.toNat = r'.toNat := by
    by_contra hne
    have := rowBase20x4_disjoint g _ hr _ hr' hne
    omega
  rw [hrow, Nat.add_left_cancel_iff] at hsum
  exact ⟨BitVec.eq_of_toNat_eq hsum, BitVec.eq_of_toNat_eq hrow⟩

/-! ### LOCATE and CHARACTER -/

theorem exec_locate_of_inrange {s : State} {c r : Byte} (h : inrange s.geom c r = true) :
    exec (.locate c r) s = .next (loadSeq [.set (.curTo (c.truncate 6) (r.truncate 2))] s) := if_pos h

theorem exec_locate_of_not_inrange {s : State} {c r : Byte} (h : ¬ inrange s.geom c r = true) :
    exec (.locate c r) s = .next (raiseError .errAddr s) := if_neg h

/-- The mapper's flag excludes nothing beyond the range check (42_addressing.md R130, R133). -/
theorem exec_character_of_inrange {s : State} {c r : Byte} (h : inrange s.geom c r = true) (v : Byte) :
    exec (.character c r v) s
      = .next (loadSeq (frame s.params (address s.geom c r).1 .cmd ++ frame s.params v .data) s) :=
  if_pos (Bool.and_eq_true_iff.2 ⟨h, congrArg Prod.snd (address_of_inrange h)⟩)

theorem exec_character_of_not_inrange {s : State} {c r : Byte} (h : ¬ inrange s.geom c r = true) (v : Byte) :
    exec (.character c r v) s = .next (raiseError .errAddr s) :=
  if_neg fun hand => h (Bool.and_eq_true_iff.1 hand).1

/-- Settles O41: LOCATE loads one update, and the cursor registers are wide enough for every position in range. -/
theorem locateMovesTheCursorOrIsErrAddr : Obligations.LocateMovesTheCursorOrIsErrAddr := by
  refine fun s c r => ⟨fun hin => ?_, fun hout => exec_locate_of_not_inrange (mt inrange_iff.1 hout)⟩
  refine ⟨_, exec_locate_of_inrange (inrange_iff.2 hin), rfl, rfl, ?_, ?_, rfl⟩
  · exact (BitVec.toNat_setWidth ..).trans (Nat.mod_eq_of_lt (hin.1.trans (columns_lt s.geom)))
  · exact (BitVec.toNat_setWidth ..).trans (Nat.mod_eq_of_lt (hin.2.trans_le (rows_le s.geom)))

/-- Settles O42: CHARACTER loads the frames of the mapper's address and of the value. -/
theorem characterWritesAtItsPositionOrIsErrAddr : Obligations.CharacterWritesAtItsPositionOrIsErrAddr := by
  refine fun s c r v => ⟨fun hin => ?_, fun hout => exec_character_of_not_inrange (mt inrange_iff.1 hout) v⟩
  have h := inrange_iff.2 hin
  refine ⟨_, (address s.geom c r).1, exec_character_of_inrange h v, rfl, address_toNat_eq_getD h, ?_, ?_⟩
  · rw [loadSeq_seq, bytesOf_append, blAfter_frame, bytesOf_frame, bytesOf_frame]
  · rw [loadSeq_seq, applySets_append, applySets_frame, applySets_frame]

end Sys2Proof.Machine
end

section
/-!
PROOFS. The character stream sink (43_stream.md): the row below, the cells of a panel in row order, and the request PUTC.
-/

namespace Sys2Proof.Machine

/-! ### The row below -/

/-- "wrapping row to 0 if it reaches `rows()`" (43_stream.md R140, R141) is the next row modulo the number of rows. -/
theorem nextRow_toNat {g : Geometry} {r : BitVec 2} (h : r.toNat < rows g) :
    (nextRow g r).toNat = (r.toNat + 1) % rows g := by
  unfold nextRow
  split
  · next hlast => rw [hlast, Nat.mod_self]; rfl
  · next hnext =>
    have hlt : r.toNat + 1 < rows g := Nat.lt_of_le_of_ne h hnext
    rw [Nat.mod_eq_of_lt hlt]
    exact BitVec.toNat_add_of_lt (hlt.trans_le (rows_le g))

theorem nextCol_toNat {g : Geometry} {c : BitVec 6} (h : c.toNat < columns g) : (c + 1).toNat = c.toNat + 1 :=
  BitVec.toNat_add_of_lt (Nat.lt_of_le_of_lt h (columns_lt g))

/-! ### The cells in row order -/

/-- The number of the cursor's cell when the cells of a panel are counted row by row. -/
def cellNumber (g : Geometry) (s : State) : Nat := s.row.toNat * columns g + s.col.toNat

theorem cellNumber_lt {s : State} (h : CursorInRange s) : cellNumber s.geom s < rows s.geom * columns s.geom :=
  calc cellNumber s.geom s
    _ < s.row.toNat * columns s.geom + columns s.geom := Nat.add_lt_add_left h.1 _
    _ = (s.row.toNat + 1) * columns s.geom := (Nat.succ_mul ..).symm
    _ ≤ rows s.geom * columns s.geom := Nat.mul_le_mul_right _ h.2

theorem cursorInRange_curAdv {s : State} (h : CursorInRange s) : CursorInRange (applyUpdate .curAdv s) :=
  cursorInRange_applyUpdate .curAdv s trivial h

/-- The advance of 43_stream.md R140 goes to the next cell: inside a row that is the next column, and from the end of a row
the first column of the next. -/
theorem cellNumber_curAdv {s : State} (h : CursorInRange s) :
    cellNumber s.geom (applyUpdate .curAdv s) = (cellNumber s.geom s + 1) % (rows s.geom * columns s.geom) := by
  obtain ⟨hcol, hrow⟩ := h
  cases hlast : atLastColumn s.geom s.col with
  | true =>
    have hend : cellNumber s.geom s + 1 = (s.row.toNat + 1) * columns s.geom := by
      rw [cellNumber, Nat.add_assoc, of_decide_eq_true hlast, Nat.succ_mul]
    rw [hend, Nat.mul_mod_mul_right, ← nextRow_toNat hrow]
    simp [cellNumber, hlast]
  | false =>
    have hnext : cellNumber s.geom (applyUpdate .curAdv s) = cellNumber s.geom s + 1 := by
      simp only [cellNumber, applyUpdate_curAdv_row, applyUpdate_curAdv_col, hlast, Bool.false_eq_true, if_false,
        nextCol_toNat hcol, Nat.add_assoc]
    rw [← hnext]
    exact (Nat.mod_eq_of_lt (cellNumber_lt (cursorInRange_curAdv ⟨hcol, hrow⟩))).symm

/-- Settles O46, by induction on the number of advances, from the cursor after the first of them. -/
theorem advancesWalkTheScreenAndWrap : Obligations.AdvancesWalkTheScreenAndWrap := by
  intro s n h
  induction n generalizing s with
  | zero => exact ⟨h, (Nat.mod_eq_of_lt (cellNumber_lt h)).symm⟩
  | succ n ih =>
    obtain ⟨hrange, hcell⟩ := ih (applyUpdate .curAdv s) (cursorInRange_curAdv h)
    refine ⟨hrange, hcell.trans ?_⟩
    calc (cellNumber s.geom (applyUpdate .curAdv s) + n) % (rows s.geom * columns s.geom)
      _ = ((cellNumber s.geom s + 1) % (rows s.geom * columns s.geom) + n) % (rows s.geom * columns s.geom) := by
        rw [cellNumber_curAdv h]
      _ = (cellNumber s.geom s + (n + 1)) % (rows s.geom * columns s.geom) := by
        rw [Nat.mod_add_mod, Nat.add_assoc, Nat.add_comm 1 n]

/-! ### PUTC -/

theorem exec_putc_newline (s : State) : exec (.putc 0x0A) s = .next (loadSeq [.set .curNl] s) := rfl

theorem exec_putc_of_ne_newline {ch : Byte} (h : ch ≠ 0x0A) (s : State) :
    exec (.putc ch) s
      = .next (loadSeq (frame s.params (cursorAddress s).1 .cmd ++ frame s.params ch .data ++ [.set .curAdv]) s) :=
  if_neg h

theorem cursorAddress_toNat {s : State} (h : CursorInRange s) :
    (cursorAddress s).1.toNat = [0x80, 0xC0, 0x94, 0xD4].getD s.row.toNat 0 + s.col.toNat := by
  rw [cursorAddress, address_toNat_eq_getD (inrange_cursor h), BitVec.toNat_setWidth_of_le (by decide : 2 ≤ 8),
    BitVec.toNat_setWidth_of_le (by decide : 6 ≤ 8)]

/-- Settles O44: the frames send the address and the character, and the one update after them is the advance. -/
theorem putcWritesAtTheCursorAndAdvances : Obligations.PutcWritesAtTheCursorAndAdvances := by
  intro s ch hch h
  refine ⟨_, _, exec_putc_of_ne_newline hch s, rfl, cursorAddress_toNat h, rfl, ?_, rfl, ?_, ?_⟩
  · simp [bytesOf_append, bytesOf_frame, bytesOf]
  · exact cursorInRange_curAdv (s := loadSeq _ s) h
  · exact cellNumber_curAdv (s := loadSeq _ s) h

/-- Settles O45: the one update of the list is the newline's. -/
theorem putcNewlineMovesToTheNextRow : Obligations.PutcNewlineMovesToTheNextRow :=
  fun s h => ⟨_, exec_putc_newline s, rfl, rfl, rfl, nextRow_toNat h⟩

end Sys2Proof.Machine
end

section
/-!
PROOFS. The custom glyph upload (44_glyph.md): the bytes of the glyph's frames, the command of a slot, and the request CREATE.
-/

namespace Sys2Proof.Machine

/-! ### The frames of a glyph -/

theorem applySets_of_updatesOf_nil {ops : List MicroOp} (h : updatesOf ops = []) (s : State) : applySets ops s = s := by
  induction ops with
  | nil => rfl
  | cons op ops ih =>
    cases op with
    | put q => exact ih h
    | wait t => exact ih h
    | set u => exact absurd h (List.cons_ne_nil u _)

theorem bytesOf_flatMap_frame (p : Params) (bl : Bool) (rs : RegSel) (v : Nat → Byte) (ks : List Nat) :
    bytesOf p bl (ks.flatMap fun k => frame p (v k) rs) = ks.flatMap fun k => wireBytes p bl rs (v k) := by
  induction ks with
  | nil => rfl
  | cons k ks ih => rw [List.flatMap_cons, List.flatMap_cons, bytesOf_append, blAfter_frame, bytesOf_frame, ih]

/-- The glyph bytes go out whole, in array order (44_glyph.md R145, R147). -/
theorem bytesOf_glyphFrames (p : Params) (bl : Bool) (g : Glyph) :
    bytesOf p bl (glyphFrames p g) = (List.range 8).flatMap fun k => wireBytes p bl .data (g.extractLsb' (8 * k) 8) :=
  bytesOf_flatMap_frame p bl .data (glyphByte g) (List.range 8)

/-! ### The command of a slot -/

/-- A slot of 0..7 shifted by 3 stays below the bit of 0x40, so the OR of 44_glyph.md R145 is a sum without a carry. -/
theorem glyphCommand_eq_ofNat {slot : Byte} (h : slot.toNat ≤ 7) :
    0x40#8 ||| (slot <<< 3) = BitVec.ofNat 8 (0x40 + 8 * slot.toNat) := by
  have hlt : 8 * slot.toNat < 2 ^ 6 := by omega
  have hshift : (slot <<< 3).toNat = 8 * slot.toNat := by
    rw [BitVec.toNat_shiftLeft, Nat.shiftLeft_eq]; omega
  refine BitVec.eq_of_toNat_eq ?_
  calc (0x40#8 ||| (slot <<< 3)).toNat
    _ = 2 ^ 6 * 1 ||| 8 * slot.toNat := by rw [BitVec.toNat_or, hshift]; rfl
    _ = 0x40 + 8 * slot.toNat := (Nat.two_pow_add_eq_or_of_lt hlt 1).symm
    _ = (BitVec.ofNat 8 (0x40 + 8 * slot.toNat)).toNat := by rw [BitVec.toNat_ofNat]; omega

/-! ### CREATE -/

theorem exec_create_of_le {slot : Byte} (h : slot.toNat ≤ 7) (g : Glyph) (s : State) :
    exec (.create slot g) s
      = .next (loadSeq (frame s.params (0x40#8 ||| (slot <<< 3)) .cmd ++ glyphFrames s.params g) s) :=
  if_neg h.not_gt

theorem exec_create_of_gt {slot : Byte} (h : 7 < slot.toNat) (g : Glyph) (s : State) :
    exec (.create slot g) s = .next (loadSeq [] s) := if_pos h

/-- Settles O43: a slot of the CGRAM loads frames alone, which make no update, and any other slot loads nothing. -/
theorem createUploadsOrIsANoOp : Obligations.CreateUploadsOrIsANoOp := by
  intro s slot g
  obtain hslot | hslot := le_or_gt slot.toNat 7
  · refine ⟨_, exec_create_of_le hslot g s, rfl, ?_, fun _ => ?_, fun hgt => absurd hslot hgt.not_ge⟩
    · exact applySets_of_updatesOf_nil (by simp) _
    · rw [loadSeq_seq, bytesOf_append, blAfter_frame, bytesOf_frame, bytesOf_glyphFrames, glyphCommand_eq_ofNat hslot]
  · exact ⟨_, exec_create_of_gt hslot g s, rfl, rfl, fun hle => absurd hslot hle.not_gt, fun _ => rfl⟩

end Sys2Proof.Machine
end

section
/-!
PROOFS. Exceptions (60_exceptions.md): the step in which a write fails, what it leaves to a request and to the initialization,
and a run up to and with that step.
-/

namespace Sys2Proof.Machine

/-! ### The step of a failing write -/

/-- Settles O9: step_eq_next names the state that the step answers. -/
theorem everyStepAnswersNext : Obligations.EveryStepAnswersNext := fun s => ⟨next s, step_eq_next s⟩

/-- The case of the step in which the outstanding write is answered `fail` (40_nibble_framer.md R85). -/
theorem step_failedPut {s : State} {q : Byte} {ops : List MicroOp} (hr : s.pins.reset = false)
    (hf : s.fsm = .initializing ∨ s.fsm = .ready) (hs : s.seq = .put q :: ops) (ht : s.txp = true)
    (hd : s.pins.txDone = true) (ho : s.pins.txOk = false) : step s = .next (abortOwner (advance s)) := by
  rw [step_microOp s _ ops hr hf hs]
  simp [execMicroOp, execPut, ht, hd, ho]

theorem abortOwner_of_req {s : State} {c : Code} (hc : s.cur = .req c) :
    abortOwner s = { s with seq := [], cur := .req .errIo, txp := false } := by simp [abortOwner, hc, raiseError]

theorem abortOwner_of_init {s : State} (hc : s.cur = .init) :
    abortOwner s = { s with fsm := .failed, seq := [], cur := .none, txp := false } := by simp [abortOwner, hc]

@[simp] theorem abortOwner_seq (s : State) : (abortOwner s).seq = [] := by
  obtain ⟨_, h⟩ | ⟨_, _, h⟩ | ⟨_, h⟩ := abortOwner_cases s <;> simp [h]

/-- Settles O23: the failing step leaves `ERR_IO` held over an empty list in READY, and the next step is the response. -/
theorem failedWriteEndsTheRequestWithErrIo : Obligations.FailedWriteEndsTheRequestWithErrIo := by
  intro s q ops c hr hf hc hs ht hd ho
  refine ⟨_, step_failedPut hr (.inr hf) hs ht hd ho, abortOwner_of_req hc, fun hr' => ?_⟩
  rw [abortOwner_of_req (s := advance s) hc] at hr' ⊢
  exact ⟨_, step_respond _ .errIo hr' (.inr hf) rfl rfl, rfl, (reqReady_iff _).2 ⟨hf, rfl, rfl⟩⟩

/-- Settles O24: the failing step under the owner INIT, and then the case of the step in FAILED. -/
theorem initializationFailureIsTerminalUntilReset : Obligations.InitializationFailureIsTerminalUntilReset := by
  refine ⟨fun s q ops hr hf hc hs ht hd ho => ?_, fun s hr hf => ⟨step_failed s hr hf, by simp [reqReady, hf]⟩⟩
  exact ⟨_, (step_failedPut hr (.inl hf) hs ht hd ho).trans (congrArg _ (abortOwner_of_init hc)), rfl, rfl, rfl⟩

/-! ### A run that ends in a failing write -/

/-- Of the cases of the step, a failing write alone makes the code `ERR_IO` or `STATE` FAILED (60_exceptions.md R153, R155). -/
theorem Inv.next_of_failure {s : State} (h : Inv s) (hcur : s.cur = .req .ok ∨ s.cur = .init)
    (hfail : (next s).cur = .req .errIo ∨ (next s).fsm = .failed) :
    ∃ q rest, s.seq = .put q :: rest ∧ s.txp = true ∧ next s = abortOwner (advance s) := by
  have hc : s.cur ≠ .none := by rcases hcur with hcur | hcur <;> simp [hcur]
  have herr : s.cur ≠ .req .errIo := by rcases hcur with hcur | hcur <;> simp [hcur]
  have hfsm : s.fsm ≠ .failed := fun hf => hc (h.failedIdle hf).2
  have hst := stepTo_of_step (step_eq_next s)
  generalize next s = t at hst hfail ⊢
  cases hst with
  | microOp op rest _ _ hs =>
    obtain ⟨hfsm', hcur'⟩ | ⟨⟨q, rfl⟩, ht, _, _, he⟩ := execMicroOp_owner s.pins op rest (advance s)
    · exact absurd hfail (not_or.2 ⟨by rwa [hcur'], by rwa [hfsm']⟩)
    · exact ⟨q, rest, hs, ht, he⟩
  | reset | initDone => simp at hfail
  | respond => exact absurd (hfail.resolve_left (by simp)) hfsm
  | settle _ hf => exact absurd (h.uninitIdle hf).2 hc
  | failed _ hf => exact absurd hf hfsm
  | accept _ _ _ hq => exact absurd ((reqReady_iff s).1 hq).2.2 hc
  | idle _ _ _ hc' => exact absurd hc' hc

/-- A write that stands on the port after a run from an idle port is the next byte of the list: the run has issued the bytes of
the list up to and with that `PUT`. -/
theorem Completes.writes_of_outstanding {done : List MicroOp} {writes : List TxWrite} {us : Nat} {s t : State} {q : Byte}
    {rest : List MicroOp} (h : Completes done writes us s t) (hidle : s.txp = false) (hs : t.seq = .put q :: rest)
    (ht : t.txp = true) : writes = (bytesOf s.params s.bl (done ++ [.put q])).map fun b => ⟨addr8 s.addr7, b⟩ := by
  have hbl : t.bl = blAfter s.bl done := (bl_eq_of_registers_eq h.registers).trans (applySets_bl done s)
  have haddr : t.addr7 = s.addr7 := by
    obtain ⟨_, _, _, _, _, haddr, _⟩ := applySets_frame_fields done s
    exact (addr7_eq_of_registers_eq h.registers).trans haddr
  have hport := txPort_of_outstanding hs ht
  rw [h.params, hbl, haddr] at hport
  simpa [txPort_of_idle hidle, hport, bytesOf_append, bytesOf] using h.writes

/-- Settles O56: the list is completed up to a `PUT` whose write stands on the port, and the failing step issues nothing, writes
no register and drops the rest. -/
theorem failedRequestIsCutAtOnePut : Obligations.FailedRequestIsCutAtOnePut := by
  intro s k h hidle hcur hstay hfail
  have hlast : after (k + 1) s = next (after k s) := after_add k 1 s
  have hend : (after k s).cur = s.cur := hstay k le_rfl
  have hc : s.cur ≠ .none := by rcases hcur with hcur | hcur <;> simp [hcur]
  obtain ⟨before, hrun⟩ := h.completes_after hc k hstay
  rw [hlast] at hfail ⊢
  obtain ⟨q, rest, hs, ht, hn⟩ := (inv_after k h).next_of_failure (hend ▸ hcur) hfail
  refine ⟨before, q, rest, hs ▸ hrun.seq, ?_, ?_, by rw [hn, abortOwner_seq]⟩
  · have hsilent : issues (after k s) = [] := issues_of_outstanding (txPort_of_outstanding hs ht)
    rw [trace_add, ← hrun.writes_of_outstanding hidle hs ht]
    simp [trace, hsilent]
  · rw [hn, (abortOwner_sameButControl _).registers, registers_advance, hrun.registers]

end Sys2Proof.Machine
end

section
/-!
PROOFS. Reset and hazards (70_reset_and_hazards.md): the step under reset, the settle time after it, and what each request costs
on the transport (R181).
-/

namespace Sys2Proof.Machine

/-! ### Reset and the settle time -/

/-- Settles O11: the reset is the first case of the step, and resetBlock names every piece of state. -/
theorem resetTakesPrecedence : Obligations.ResetTakesPrecedence :=
  fun s hr => ⟨_, step_reset s hr, rfl, rfl, rfl, rfl, rfl, rfl, rfl, rfl, rfl, rfl, rfl, rfl, rfl, rfl, txPort_of_idle rfl⟩

/-- Settles O13: the two cases of the step in UNINIT are those of settle_cases. -/
theorem initializationStartsAfterPowerSettle : Obligations.InitializationStartsAfterPowerSettle := by
  intro s hr hf
  refine ⟨_, step_uninit s hr hf, ?_⟩
  obtain ⟨hle, he⟩ | ⟨hlt, he⟩ := settle_cases s.pins (advance s)
  · exact ⟨fun _ => he, fun hlt => absurd hle hlt.not_ge⟩
  · exact ⟨fun hle => absurd hle hlt.not_ge, fun _ => he⟩

/-! ### The cost of a list -/

/-- What a micro-op adds to the transport bytes and to the least time, in µs. -/
def MicroOp.cost : MicroOp → Nat × Nat
  | .put _ => (1, 0)
  | .wait t => (0, t)
  | .set _ => 0

/-- The transport bytes and the least time of a list: the costs of its micro-ops add (40_nibble_framer.md R92). -/
def costOf (ops : List MicroOp) : Nat × Nat := (ops.map MicroOp.cost).sum

@[simp] theorem costOf_nil : costOf [] = 0 := rfl

@[simp] theorem costOf_cons (op : MicroOp) (ops : List MicroOp) : costOf (op :: ops) = op.cost + costOf ops := by
  simp [costOf]

@[simp] theorem costOf_append (ops ops' : List MicroOp) : costOf (ops ++ ops') = costOf ops + costOf ops' := by
  simp [costOf]

/-- Only a `PUT` sends a byte, whatever the backlight level, and only a `WAIT` takes time. -/
theorem length_bytesOf_waitsOf_eq_costOf (p : Params) (bl : Bool) (ops : List MicroOp) :
    ((bytesOf p bl ops).length, waitsOf ops) = costOf ops := by
  induction ops generalizing bl with
  | nil => rfl
  | cons op ops ih =>
    rw [costOf_cons]
    cases op with
    | put q => simp [← ih (bl := bl), bytesOf, waitsOf, MicroOp.cost, Nat.add_comm]
    | wait t => simp [← ih (bl := bl), bytesOf, waitsOf, MicroOp.cost]
    | set u => cases u <;> exact (ih _).trans (zero_add _).symm

/-! ### The macros under the default waits -/

section
variable {p : Params} (hp : p = { Params.default with clsHome := p.clsHome })
include hp

theorem costOf_frame (v : Byte) (rs : RegSel) : costOf (frame p v rs) = (6, 84) := by rw [hp]; rfl

theorem costOf_wait_tLong : costOf [.wait p.tLong] = (0, 2000) := by rw [hp]; rfl

theorem costOf_homeCommand : costOf (homeCommand p) = (6, 2084) := by
  rw [homeCommand, costOf_append, costOf_frame hp, costOf_wait_tLong hp]; rfl

theorem costOf_flatMap_frame (rs : RegSel) (v : Nat → Byte) (ks : List Nat) :
    costOf (ks.flatMap fun k => frame p (v k) rs) = (6 * ks.length, 84 * ks.length) := by
  induction ks with
  | nil => rfl
  | cons k ks ih =>
    rw [List.flatMap_cons, costOf_append, costOf_frame hp, ih]
    simp [Nat.mul_add, Nat.add_comm]

theorem costOf_glyphFrames (glyph : Glyph) : costOf (glyphFrames p glyph) = (48, 672) :=
  costOf_flatMap_frame hp .data (glyphByte glyph) (List.range 8)

end

/-! ### The cost of a request -/

/-- Settles O47: each list is frames, waits and updates, whose costs add. -/
theorem requestCostsAreThoseOfTheTable : Obligations.RequestCostsAreThoseOfTheTable := by
  intro i s t hp h hok
  rw [length_bytesOf_waitsOf_eq_costOf]
  have hframe (v : Byte) (rs : RegSel) := costOf_frame hp v rs
  have hset (u : Update) : costOf [.set u] = 0 := rfl
  have hmode (u : Update) (v : Byte) : costOf (.set u :: frame s.params v .cmd) = (6, 84) := by
    rw [costOf_cons, hframe]; rfl
  cases i with
  | cls =>
    cases h
    rw [loadSeq_seq, costOf_append, costOf_append, costOf_append, hframe, costOf_wait_tLong hp, hset]
    cases s.params.clsHome
    · rfl
    · rw [if_pos rfl, costOf_homeCommand hp]; rfl
  | home => cases h; rw [loadSeq_seq, costOf_append, costOf_homeCommand hp]; rfl
  | locate c r =>
    by_cases hin : inrange s.geom c r = true
    · rw [exec_locate_of_inrange hin] at h; cases h; rfl
    · rw [exec_locate_of_not_inrange hin] at h; cases h; cases hok
  | character c r v =>
    by_cases hin : inrange s.geom c r = true
    · rw [exec_character_of_inrange hin] at h
      cases h
      rw [loadSeq_seq, costOf_append, hframe, hframe]; rfl
    · rw [exec_character_of_not_inrange hin] at h; cases h; cases hok
  | create slot glyph =>
    obtain hslot | hslot := le_or_gt slot.toNat 7
    · rw [exec_create_of_le hslot] at h
      cases h
      rw [loadSeq_seq, costOf_append, hframe, costOf_glyphFrames hp]
      exact (if_pos hslot).symm
    · rw [exec_create_of_gt hslot] at h; cases h; exact (if_neg hslot.not_ge).symm
  | putc ch =>
    by_cases hnl : ch = 0x0A
    · subst hnl; cases h; rfl
    · rw [exec_putc_of_ne_newline hnl] at h
      cases h
      rw [loadSeq_seq, costOf_append, costOf_append, hframe, hframe, hset]
      exact (if_neg hnl).symm
  | scrollLeft | scrollRight => cases h; exact hframe _ _
  | backlightOn | backlightOff => cases h; rfl
  | displayOn | displayOff | cursorOn | cursorOff | blinkOn | blinkOff | leftToRight | rightToLeft | autoscrollOn
  | autoscrollOff => cases h; exact hmode _ _

end Sys2Proof.Machine
end
